-- ==== Sys2Proof/Word.lean ====
section
/-! DEFINITION. The value types of AES-CORE: bytes, words, blocks and the cipher state
(00_scope.md R8, R11; 10_state.md R40). Every value is unsigned. -/

namespace Sys2Proof

/-- A byte: 8 bits, bit 0 least significant (00_scope.md R11). -/
abbrev Byte := BitVec 8

/-- A word: 32 bits (00_scope.md R8, R12). -/
abbrev Word := BitVec 32

/-- A block: 16 bytes in stream order, byte 0 first (00_scope.md R18; 20_memory.md R73). -/
abbrev Block := Vector Byte 16

/-- The cipher state S: `s[r][c]` is the byte at row `r`, column `c` (10_state.md R40). -/
abbrev CState := Vector (Vector Byte 4) 4

end Sys2Proof
end

