-- ==== Sys2Proof/Syntax.lean ====
section
/-! DEFINITION. The instructions of AES-CORE: its four host commands (spec/opcode_table.json;
30_encoding.md R107–R110). The operand bundle (key, IV, data) is no part of a command word: it comes from the
operand latches (30_encoding.md R112). -/

namespace Sys2Proof

/-- The construction field CONS of format C (30_encoding.md R108). The encoding 3 spells no command, so it is
no constructor here: the decoder rejects it (R113). -/
inductive Construction where
  | ecb
  | cbc
  | gcm
  deriving DecidableEq, Repr

/-- The direction field MODE of format T (30_encoding.md R109): 0 encrypt, 1 decrypt. -/
inductive Mode where
  | enc
  | dec
  deriving DecidableEq, Repr

/-- One constructor per row of spec/opcode_table.json. Lengths are the raw field values, in bytes. -/
inductive Instr where
  /-- CREATE_SESSION, format C (R108, R271). -/
  | createSession (cons : Construction) (klen : BitVec 6) (ivlen : BitVec 5)
  /-- TRANSFORM.ENC, format T with MODE = 0 (R109, R276). -/
  | transformEnc (dlen : BitVec 5)
  /-- TRANSFORM.DEC, format T with MODE = 1 (R109, R277). -/
  | transformDec (dlen : BitVec 5)
  /-- CLOSE_SESSION, format Z (R110, R280). -/
  | closeSession
  deriving DecidableEq, Repr

end Sys2Proof
end

