-- ==== Sys2Proof/WellFormed.lean ====
section
/-! DEFINITION. Which instructions a command word can spell (30_encoding.md R108–R110, R113): every field value
but a data length above 16, which the decoder calls Illegal. -/

namespace Sys2Proof

/-- The data-length check of the decoder (30_encoding.md R109, R113): DLEN is 0..16. -/
abbrev DlenOk (dlen : BitVec 5) : Prop := dlen.toNat ≤ 16

/-- An instruction the decoder can answer (30_encoding.md R113). KLEN, IVLEN and GCM are not checked here: the
command rules check them (R114). -/
def WellFormed : Instr → Bool
  | .createSession _ _ _ => true
  | .transformEnc dlen => decide (DlenOk dlen)
  | .transformDec dlen => decide (DlenOk dlen)
  | .closeSession => true

end Sys2Proof
end

