-- ==== Sys2Proof/Decode.lean ====
section
/-! DEFINITION. The decoder and the encoder of command words (30_encoding.md R107–R117, spec/opcode_table.json).
The decoder is total on all 2^32 words; a word that spells no command is rejected under the reason's name. -/

namespace Sys2Proof

/-- Why a word spells no command (30_encoding.md R115). All four give the one verdict `Illegal` of R113. -/
inductive Illegal where
  /-- OP is 0x0 or 0x4..0xF (R107, R116). -/
  | reservedOpcode
  /-- A reserved bit of the format is 1 (R111). -/
  | reservedBits
  /-- CONS = 3 (R108). -/
  | reservedConstruction
  /-- DLEN > 16 (R109). -/
  | dataTooLong
  deriving DecidableEq, Repr

/-- OP = cmd[3:0] (30_encoding.md R107). -/
def opField (cmd : BitVec 32) : BitVec 4 := cmd.extractLsb' 0 4

/-- CONS = cmd[5:4] (30_encoding.md R108). -/
def consField (cmd : BitVec 32) : BitVec 2 := cmd.extractLsb' 4 2

/-- KLEN = cmd[13:8] (30_encoding.md R108). -/
def klenField (cmd : BitVec 32) : BitVec 6 := cmd.extractLsb' 8 6

/-- IVLEN = cmd[20:16] (30_encoding.md R108). -/
def ivlenField (cmd : BitVec 32) : BitVec 5 := cmd.extractLsb' 16 5

/-- MODE = cmd[4] (30_encoding.md R109). -/
def modeField (cmd : BitVec 32) : BitVec 1 := cmd.extractLsb' 4 1

/-- DLEN = cmd[12:8] (30_encoding.md R109). -/
def dlenField (cmd : BitVec 32) : BitVec 5 := cmd.extractLsb' 8 5

/-- The construction a CONS field selects; 3 selects none (30_encoding.md R108). -/
def constructionOf (c : BitVec 2) : Option Construction :=
  if c = 0#2 then some .ecb
  else if c = 1#2 then some .cbc
  else if c = 2#2 then some .gcm
  else none

/-- The CONS field of a construction (30_encoding.md R108). -/
def constructionBits : Construction → BitVec 2
  | .ecb => 0#2
  | .cbc => 1#2
  | .gcm => 2#2

/-- Format C: reserved bits 7:6, 15:14 and 31:21, then CONS (30_encoding.md R108, R113). -/
def decodeC (cmd : BitVec 32) : Except Illegal Instr :=
  if cmd.extractLsb' 6 2 ≠ 0#2 ∨ cmd.extractLsb' 14 2 ≠ 0#2 ∨ cmd.extractLsb' 21 11 ≠ 0#11 then
    .error .reservedBits
  else
    match constructionOf (consField cmd) with
    | none => .error .reservedConstruction
    | some c => .ok (.createSession c (klenField cmd) (ivlenField cmd))

/-- Format T: reserved bits 7:5 and 31:13, then DLEN, then MODE (30_encoding.md R109, R113). -/
def decodeT (cmd : BitVec 32) : Except Illegal Instr :=
  if cmd.extractLsb' 5 3 ≠ 0#3 ∨ cmd.extractLsb' 13 19 ≠ 0#19 then .error .reservedBits
  else if (dlenField cmd).toNat > 16 then .error .dataTooLong
  else if modeField cmd = 0#1 then .ok (.transformEnc (dlenField cmd))
  else .ok (.transformDec (dlenField cmd))

/-- Format Z: every bit above OP is reserved (30_encoding.md R110, R113). -/
def decodeZ (cmd : BitVec 32) : Except Illegal Instr :=
  if cmd.extractLsb' 4 28 ≠ 0#28 then .error .reservedBits else .ok .closeSession

/-- The decoder of 30_encoding.md R113, total on all command words. -/
def decode (cmd : BitVec 32) : Except Illegal Instr :=
  if opField cmd = 1#4 then decodeC cmd
  else if opField cmd = 2#4 then decodeT cmd
  else if opField cmd = 3#4 then decodeZ cmd
  else .error .reservedOpcode

/-- Pattern `00000000000VVVVV00KKKKKK00CC0001` (30_encoding.md R108). -/
def encodeC (c : Construction) (klen : BitVec 6) (ivlen : BitVec 5) : BitVec 32 :=
  ivlen.setWidth 32 <<< 16 ||| klen.setWidth 32 <<< 8 ||| (constructionBits c).setWidth 32 <<< 4 ||| 1#32

/-- Pattern `0000000000000000000LLLLL000M0010` (30_encoding.md R109). -/
def encodeT (m : Mode) (dlen : BitVec 5) : BitVec 32 :=
  dlen.setWidth 32 <<< 8 ||| (match m with | .enc => 0#32 | .dec => 1#32 <<< 4) ||| 2#32

/-- The command word of an instruction (30_encoding.md R108–R110). -/
def encode : Instr → BitVec 32
  | .createSession c klen ivlen => encodeC c klen ivlen
  | .transformEnc dlen => encodeT .enc dlen
  | .transformDec dlen => encodeT .dec dlen
  | .closeSession => 3#32

/-- The instruction the decoder reads from a word given as a number, bit 0 the least significant. Bits at
`nbits` and above count as 0. -/
def decodeTableWord (nbits w : Nat) : Option Instr :=
  match decode (BitVec.ofNat 32 (w % 2 ^ nbits)) with
  | .ok i => some i
  | .error _ => none

end Sys2Proof
end

