-- ==== Sys2Proof/Config.lean ====
section
/-! DEFINITION. What an implementation of AES-CORE fixes and the spec leaves open: the command latencies
(00_scope.md R10; 92_eei_decisions.md D2), and the fixed counts of 00_scope.md R9. -/

namespace Sys2Proof.Config

/-- The designation string the spec gives the hardware (00_scope.md R3). -/
def designation : String := "AES-CORE/K128+K192+K256/ECB+CBC"

/-- Session contexts held at a time (00_scope.md R9). -/
def contexts : Nat := 1

/-- Round datapaths (00_scope.md R9). -/
def datapaths : Nat := 1

/-- The three classes a latency depends on (00_scope.md R10; 30_encoding.md R106). -/
inductive LatencyClass where
  | create
  | transform
  | close
  deriving DecidableEq, Repr

/-- OPEN PARAMETER: the cycles of a command beyond the first one, by class, round count and whether the
checks pass; it takes no key, IV or data value (70_reset_and_hazards.md R370; 92_eei_decisions.md, table of
open parameters). It has no body, so nothing in a proof can rest on a value of it (log entry 6). -/
opaque latencyExtra (cls : LatencyClass) (nr : Nat) (pass : Bool) : Nat

end Sys2Proof.Config
end

