-- ==== Sys2Proof/Machine/Bytes.lean ====
section
/-! DEFINITION. Byte order and the packing of bytes into words and ports (00_scope.md R11–R13; 20_memory.md
R71–R74), and the builders for the fixed-size vectors the rest of the model uses. -/

namespace Sys2Proof.Machine

/-- A vector of 4 elements from its values. -/
def vec4 {α : Type} (f : Fin 4 → α) : Vector α 4 := #v[f 0, f 1, f 2, f 3]

/-- A vector of 8 elements from its values. -/
def vec8 {α : Type} (f : Fin 8 → α) : Vector α 8 := #v[f 0, f 1, f 2, f 3, f 4, f 5, f 6, f 7]

/-- A vector of 16 elements from its values. -/
def vec16 {α : Type} (f : Fin 16 → α) : Vector α 16 :=
  #v[f 0, f 1, f 2, f 3, f 4, f 5, f 6, f 7, f 8, f 9, f 10, f 11, f 12, f 13, f 14, f 15]

/-- The cipher state with byte `f r c` at row `r`, column `c` (10_state.md R40). -/
def matrix (f : Fin 4 → Fin 4 → Byte) : CState := vec4 fun r => vec4 fun c => f r c

/-- `word(a, b, c, d)` = `a·2^24 + b·2^16 + c·2^8 + d`: byte 0 first and most significant (00_scope.md R12;
20_memory.md R71). -/
def word (a b c d : Byte) : Word :=
  a.setWidth 32 <<< 24 ||| b.setWidth 32 <<< 16 ||| c.setWidth 32 <<< 8 ||| d.setWidth 32

/-- Byte `n` of a word: byte 0 is `w[31:24]`, byte 3 is `w[7:0]` (00_scope.md R12). -/
def wordByte (w : Word) (n : Fin 4) : Byte := w.extractLsb' (24 - 8 * n.val) 8

/-- The all-zero block. -/
def zeroBlock : Block := Vector.replicate 16 0#8

/-- Byte by byte exclusive-or of two blocks, in stream order (46_chaining.md R256). -/
def xorBlock (a b : Block) : Block := vec16 fun k => a[k.val] ^^^ b[k.val]

/-- A 128-bit port value as a block: byte `k` is bits `[127-8k : 120-8k]` (20_memory.md R74). -/
def blockOfPort (p : BitVec 128) : Block := vec16 fun k => p.extractLsb' (120 - 8 * k.val) 8

/-- A block as a 128-bit port value, its bytes shifted in from byte 0 on (20_memory.md R74). -/
def portOfBlock (b : Block) : BitVec 128 :=
  ([0, 1, 2, 3, 4, 5, 6, 7, 8, 9, 10, 11, 12, 13, 14, 15] : List (Fin 16)).foldl
    (fun acc k => acc <<< 8 ||| b[k.val].setWidth 128) 0#128

/-- A 256-bit port value as 8 words: word `j` is `key_in[255-32j : 224-32j]` (20_memory.md R74). -/
def wordsOfPort (p : BitVec 256) : Vector Word 8 := vec8 fun j => p.extractLsb' (224 - 32 * j.val) 32

/-- The key words of a byte string: word `j` is bytes `4j .. 4j+3` (20_memory.md R72). -/
def keyWordOfBytes (k : Vector Byte 32) (j : Fin 8) : Word :=
  word k[4 * j.val] k[4 * j.val + 1] k[4 * j.val + 2] k[4 * j.val + 3]

end Sys2Proof.Machine
end

