-- ==== Sys2Proof/Machine/State.lean ====
section
/-! DEFINITION. The state of AES-CORE as plain data (10_state.md R30), the reasons a step can stop, and the state
after reset (10_state.md R53). AES-CORE has no external memory (20_memory.md R70), so no address/byte list. -/

namespace Sys2Proof.Machine

/-- The storage spaces of 20_memory.md R75. -/
inductive Space where
  | w
  | rc
  | sbox
  | invSbox
  | iv
  | prev
  | cap
  | dout
  deriving DecidableEq, Repr

/-- Why the machine stops. No state reached from reset stops. -/
inductive Fault where
  /-- Raised by MemRead and MemWrite (`readElem`, `writeElem`) when an index lies outside its storage space:
  "a model that meets one anyway must fault, not wrap or return a value" (20_memory.md R75). Safe: the rules
  form no such index. -/
  | storageIndex (space : Space) (index : Nat)
  deriving DecidableEq, Repr

/-- Why a step has no meaning. -/
inductive Refusal where
  /-- Raised only by an arm of `exec` for an instruction without a meaning yet. Safe. No arm raises it. -/
  | notModelled (mnemonic : String)
  /-- Raised by RoundConstants when asked for a length other than 7, 8, 10 (41_round_constants.md R143). Safe. -/
  | constantCount (n : Nat)
  /-- Raised by the pipeline when CONFIG.NR is not 10, 12 or 14 (45_round_pipeline.md R223). Safe. -/
  | roundCount (nr : Nat)
  /-- Raised by the pipeline when SESSION is not OPEN (45_round_pipeline.md R223). Safe. -/
  | pipelineWithoutSession
  /-- Raised by the sequencer in a phase or at an index it never takes (10_state.md R43;
  93_implementation_defined.md U11). Safe. -/
  | sequencerState
  deriving DecidableEq, Repr

/-- SESSION (10_state.md R31). The value 3 is reserved and never taken, so it is no constructor. -/
inductive Session where
  | idle
  | opened
  | failed
  deriving DecidableEq, Repr

/-- STATUS: exactly the codes of 60_exceptions.md R310. -/
inductive Status where
  | ok
  | invalidKeyLength
  /-- Reserved for the host, never raised (60_exceptions.md R317). -/
  | illegalKeyCharacter
  | invalidIvLength
  | unsupportedConstruction
  /-- Reserved for the host, never raised (60_exceptions.md R317). -/
  | allocationFailure
  | incompleteFinalBlock
  | noSession
  | sessionAborted
  | illegalCommand
  deriving DecidableEq, Repr

/-- SEQ, the phase of the sequencer (10_state.md R43). The values 5..7 are never taken. -/
inductive Seq where
  | ready
  | expand
  | roundEnc
  | roundDec
  | done
  deriving DecidableEq, Repr

/-- The levels the host drives on the input ports (30_encoding.md R101), at one opportunity to accept. -/
structure PortsIn where
  rst : Bool
  cmdValid : Bool
  cmd : BitVec 32
  keyIn : BitVec 256
  ivIn : BitVec 128
  din : BitVec 128
  deriving DecidableEq, Repr

/-- Everything AES-CORE holds (10_state.md R30), then the level of `rsp_valid`, then the host's coming inputs. -/
structure State where
  /-- SESSION (R31). -/
  session : Session
  /-- CONFIG, 16 bits (R32). -/
  config : BitVec 16
  /-- STATUS (R33). -/
  status : Status
  /-- BUSY (R34). -/
  busy : Bool
  /-- W[0..59], the key-schedule word file (R35). -/
  w : Vector Word 60
  /-- RC[0..9], the round-constant table (R36). -/
  rc : Vector Byte 10
  /-- IV (R37). -/
  iv : Block
  /-- PREV, the previous ciphertext block (R38). -/
  prev : Block
  /-- FIRST (R39). -/
  first : Bool
  /-- The cipher state S (R40). -/
  st : CState
  /-- CAP, the captured incoming ciphertext (R41). -/
  cap : Block
  /-- DOUT, the last output block (R42). -/
  dout : Block
  /-- SEQ (R43). -/
  seq : Seq
  /-- RND, the round index (R43). -/
  rnd : BitVec 4
  /-- KI, the key-expansion word index (R43). -/
  ki : BitVec 6
  /-- CMDL (R44). -/
  cmdl : BitVec 32
  /-- KEYL, 8 words (R44). -/
  keyl : Vector Word 8
  /-- IVL (R44). -/
  ivl : Block
  /-- DINL (R44). -/
  dinl : Block
  /-- The level of the output port `rsp_valid` after the step (30_encoding.md R104). -/
  rspValid : Bool
  /-- The model's own field: what the host will drive on the input ports, next first. Not state of AES-CORE. -/
  host : List PortsIn
  deriving DecidableEq, Repr

/-- The state after a reset edge (10_state.md R53; 70_reset_and_hazards.md R350, R351): every value is the spec's.
The host offers nothing. -/
def State.reset : State where
  session := .idle
  config := 0#16
  status := .ok
  busy := false
  w := Vector.replicate 60 0#32
  rc := Vector.replicate 10 0#8
  iv := Vector.replicate 16 0#8
  prev := Vector.replicate 16 0#8
  first := false
  st := Vector.replicate 4 (Vector.replicate 4 0#8)
  cap := Vector.replicate 16 0#8
  dout := Vector.replicate 16 0#8
  seq := .ready
  rnd := 0#4
  ki := 0#6
  cmdl := 0#32
  keyl := Vector.replicate 8 0#32
  ivl := Vector.replicate 16 0#8
  dinl := Vector.replicate 16 0#8
  rspValid := false
  host := []

end Sys2Proof.Machine
end

