-- ==== Sys2Proof/Machine/Ops.lean ====
section
/-! DEFINITION. The named operations over the state: storage access (20_memory.md R75), release
(60_exceptions.md R318), raising an error, which is this hardware's one way of taking an exception
(60_exceptions.md R310–R322), reset (70_reset_and_hazards.md R350), and the acceptance and completion of a command
(30_encoding.md R103, R104). -/

namespace Sys2Proof.Machine

/-- Why an operation stops: a fault or a refusal. -/
inductive Stop where
  | fault (f : Fault)
  | refused (r : Refusal)
  deriving DecidableEq, Repr

/-- The result of an operation that may stop. -/
abbrev Attempt (α : Type) := Except Stop α

/-- An attempt as the outcome of a step. -/
def outcomeOf {α : Type} : Attempt α → Host.Outcome α Fault Refusal
  | .ok a => .next a
  | .error (.fault f) => .fault f
  | .error (.refused r) => .refused r

/-- `MemRead(space, index, 1)` (20_memory.md R75): out of range, it faults. -/
def readElem {α : Type} {n : Nat} (sp : Space) (v : Vector α n) (index : Nat) : Attempt α :=
  if h : index < n then .ok v[index] else .error (.fault (.storageIndex sp index))

/-- `MemWrite(space, index, 1, x)` (20_memory.md R75): out of range, it faults. -/
def writeElem {α : Type} {n : Nat} (sp : Space) (v : Vector α n) (index : Nat) (x : α) :
    Attempt (Vector α n) :=
  if h : index < n then .ok (v.set index x h) else .error (.fault (.storageIndex sp index))

/-- `MemRead(space, index, count)`: the elements at `index .. index+count-1`, in order (20_memory.md R75). -/
def memRead {α : Type} {n : Nat} (sp : Space) (v : Vector α n) (index : Nat) : Nat → Attempt (List α)
  | 0 => .ok []
  | count + 1 => do
    let x ← readElem sp v index
    let xs ← memRead sp v (index + 1) count
    return x :: xs

/-- `MemWrite(space, index, n, xs)`: the elements of `xs` at `index`, `index+1`, … (20_memory.md R75). -/
def memWrite {α : Type} {n : Nat} (sp : Space) (v : Vector α n) (index : Nat) :
    List α → Attempt (Vector α n)
  | [] => .ok v
  | x :: xs => do
    let v' ← writeElem sp v index x
    memWrite sp v' (index + 1) xs

/-- Release: zeroes the key material, the round constants and the chaining context, and leaves no session. It
changes neither STATUS nor DOUT (60_exceptions.md R318). -/
def release (s : State) : State :=
  { s with
    w := Vector.replicate 60 0#32
    rc := Vector.replicate 10 0#8
    iv := zeroBlock
    prev := zeroBlock
    cap := zeroBlock
    first := false
    config := 0#16
    session := .idle }

/-- The effect of an error on the session, before STATUS is written (60_exceptions.md R311–R316). The errors of
CREATE_SESSION leave SESSION = IDLE with the context released; IncompleteFinalBlock releases the context and leaves
SESSION = FAILED; every other code touches nothing here. -/
def errorEffect : Status → State → State
  | .invalidKeyLength, s => { s with session := .idle }
  | .unsupportedConstruction, s => { s with session := .idle }
  | .invalidIvLength, s => { s with session := .idle }
  | .incompleteFinalBlock, s => { release s with session := .failed }
  | _, s => s

/-- `raise E`: ends the command with status E and the effect of E (00_scope.md R15; 60_exceptions.md R311–R319).
Nothing is saved but STATUS and SESSION, there is no vector and no handler (R319), and there is no instruction that
returns from an error (R321): CLOSE_SESSION or CREATE_SESSION ends a failed session. -/
def raiseError (e : Status) (s : State) : State := { errorEffect e s with status := e }

/-- A reset edge: every state element takes its reset value, and `rsp_valid` is 0 in the cycle after
(70_reset_and_hazards.md R350–R352). What the host will drive next is no state of the core. -/
def resetEdge (s : State) : State := { State.reset with host := s.host }

/-- Acceptance of the command on the ports: the latches are loaded and BUSY is set (30_encoding.md R103). -/
def accept (p : PortsIn) (s : State) : State :=
  { s with
    cmdl := p.cmd
    keyl := wordsOfPort p.keyIn
    ivl := blockOfPort p.ivIn
    dinl := blockOfPort p.din
    busy := true
    rspValid := false }

/-- Completion: BUSY is cleared and `rsp_valid` is 1 in the cycle after (30_encoding.md R104). STATUS and the other
registers were written by the command's rule. -/
def complete (s : State) : State := { s with busy := false, rspValid := true }

/-- An edge at which nothing is accepted and nothing completes: only `rsp_valid` falls (30_encoding.md R104). -/
def quiet (s : State) : State := { s with rspValid := false }

end Sys2Proof.Machine
end

