-- ==== Sys2Proof/Machine/Operands.lean ====
section
/-! DEFINITION. Operand assembly from the latches (30_encoding.md R112), the fields of CONFIG (10_state.md R32), the
parameter table of 00_scope.md R7, the numeric codes of the registers (10_state.md R31, R43; 60_exceptions.md R310)
and the output ports (30_encoding.md R101, R102). -/

namespace Sys2Proof.Machine

/-- The three key sizes (00_scope.md R3, R7). -/
inductive KeySize where
  | k128
  | k192
  | k256
  deriving DecidableEq, Repr

/-- The key size of a key length in bytes: 16, 24 or 32, and no other (47_commands.md R273). -/
def keySizeOfBytes (klen : Nat) : Option KeySize :=
  if klen = 16 then some .k128
  else if klen = 24 then some .k192
  else if klen = 32 then some .k256
  else none

/-- Nk, the key length in words (00_scope.md R7). -/
def nkOf : KeySize → Nat
  | .k128 => 4
  | .k192 => 6
  | .k256 => 8

/-- Nr = Nk + 6, the round count (00_scope.md R7). -/
def nrOf (ks : KeySize) : Nat := nkOf ks + 6

/-- Nrc, the round-constant count: 10, 8 or 7 (00_scope.md R7; 47_commands.md R271). -/
def nrcOf (ks : KeySize) : Nat := if nkOf ks = 4 then 10 else if nkOf ks = 6 then 8 else 7

/-- The schedule length 4 (Nr + 1) in words (00_scope.md R7; 43_key_schedule.md R181). -/
def scheduleLen (ks : KeySize) : Nat := 4 * (nrOf ks + 1)

/-- CONFIG.CONS = CONFIG[1:0] (10_state.md R32). -/
def configCons (c : BitVec 16) : BitVec 2 := c.extractLsb' 0 2

/-- CONFIG.NK = CONFIG[7:4] (10_state.md R32). -/
def configNk (c : BitVec 16) : BitVec 4 := c.extractLsb' 4 4

/-- CONFIG.NR = CONFIG[11:8] (10_state.md R32). -/
def configNr (c : BitVec 16) : BitVec 4 := c.extractLsb' 8 4

/-- CONFIG.NRC = CONFIG[15:12] (10_state.md R32). -/
def configNrc (c : BitVec 16) : BitVec 4 := c.extractLsb' 12 4

/-- `(Nrc << 12) | (Nr << 8) | (Nk << 4) | CONS` (47_commands.md R271). -/
def packConfig (ks : KeySize) (cons : BitVec 2) : BitVec 16 :=
  (BitVec.ofNat 16 (nrcOf ks) <<< 12) ||| (BitVec.ofNat 16 (nrOf ks) <<< 8) |||
    (BitVec.ofNat 16 (nkOf ks) <<< 4) ||| cons.setWidth 16

/-- The data operand of a TRANSFORM: DINL, byte k is byte k (30_encoding.md R112). -/
def dataOperand (s : State) : Block := s.dinl

/-- The IV operand of a CREATE_SESSION: IVL (30_encoding.md R112). -/
def ivOperand (s : State) : Block := s.ivl

/-- The key operand of a CREATE_SESSION: KEYL; only words 0..Nk-1 are used (30_encoding.md R112). -/
def keyOperand (s : State) : Vector Word 8 := s.keyl

/-- The 2-bit value of SESSION (10_state.md R31). -/
def sessionCode : Session → BitVec 2
  | .idle => 0#2
  | .opened => 1#2
  | .failed => 2#2

/-- The 8-bit value of STATUS (60_exceptions.md R310). -/
def statusCode : Status → BitVec 8
  | .ok => 0x00#8
  | .invalidKeyLength => 0x01#8
  | .illegalKeyCharacter => 0x02#8
  | .invalidIvLength => 0x03#8
  | .unsupportedConstruction => 0x04#8
  | .allocationFailure => 0x05#8
  | .incompleteFinalBlock => 0x06#8
  | .noSession => 0x07#8
  | .sessionAborted => 0x08#8
  | .illegalCommand => 0x09#8

/-- The 3-bit value of SEQ (10_state.md R43). -/
def seqCode : Seq → BitVec 3
  | .ready => 0#3
  | .expand => 1#3
  | .roundEnc => 2#3
  | .roundDec => 3#3
  | .done => 4#3

/-- The levels AES-CORE drives on the output ports (30_encoding.md R101). -/
structure PortsOut where
  cmdReady : Bool
  rspValid : Bool
  rspStatus : BitVec 8
  rspState : BitVec 2
  dout : BitVec 128
  deriving DecidableEq, Repr

/-- The output ports of a state: driven from BUSY, STATUS, SESSION and DOUT at all times (30_encoding.md R101, R102;
10_state.md R34, R51). -/
def outputsOf (s : State) : PortsOut where
  cmdReady := !s.busy
  rspValid := s.rspValid
  rspStatus := statusCode s.status
  rspState := sessionCode s.session
  dout := portOfBlock s.dout

end Sys2Proof.Machine
end

