-- ==== Sys2Proof/Machine/Flags.lean ====
section
/-! DEFINITION. The flags. AES-CORE has no condition codes; its only flags are FIRST and BUSY (10_state.md R47). BUSY
is written by acceptance and completion (Machine/Ops.lean); FIRST is here, with the choice it makes. -/

namespace Sys2Proof.Machine

/-- Chaining select: F = IV while FIRST = 1, and F = PREV while FIRST = 0 (46_chaining.md R251). -/
def chainValue (s : State) : Block := if s.first then s.iv else s.prev

/-- The chaining context of a new session: CBC takes the IV operand and sets FIRST; ECB writes IV and FIRST 0; both
write PREV 0 (10_state.md R37–R39; 47_commands.md R271). -/
def setupChain (cbc : Bool) (s : State) : State :=
  if cbc then { s with iv := ivOperand s, prev := zeroBlock, first := true }
  else { s with iv := zeroBlock, prev := zeroBlock, first := false }

/-- The chaining context after a CBC block: PREV takes the ciphertext and FIRST is cleared (46_chaining.md R252,
R253). -/
def advanceChain (cipherBlock : Block) (s : State) : State := { s with prev := cipherBlock, first := false }

end Sys2Proof.Machine
end

