-- ==== Sys2Proof/Machine/GF.lean ====
section
/-! DEFINITION. Arithmetic in GF(2^8) with reduction polynomial 0x11B (44_diffusion.md R190–R193). Addition is
exclusive-or (R192). -/

namespace Sys2Proof.Machine

/-- Multiplication by {02} (44_diffusion.md R190). -/
def xtime (a : Byte) : Byte :=
  let t : BitVec 9 := a.setWidth 9 <<< 1
  if t.getLsbD 8 then (t ^^^ 0x11B#9).setWidth 8 else t.setWidth 8

/-- One turn of the multiplication loop: the product so far and the shifted operand (44_diffusion.md R191). -/
def gmulStep (b : Byte) (k : Nat) (pa : Byte × Byte) : Byte × Byte :=
  (if b.getLsbD k then pa.1 ^^^ pa.2 else pa.1, xtime pa.2)

/-- Multiplication of two bytes, by shift and add (44_diffusion.md R191). -/
def gmul (a b : Byte) : Byte :=
  ([0, 1, 2, 3, 4, 5, 6, 7].foldl (fun pa k => gmulStep b k pa) ((0#8, a) : Byte × Byte)).1

/-- The full carry-less product of two bytes, 15 bits: bit `k` of `b` adds `a` shifted left by `k`
(44_diffusion.md R191, "a full 15-bit carry-less product"). -/
def clmul (a b : Byte) : BitVec 15 :=
  [0, 1, 2, 3, 4, 5, 6, 7].foldl
    (fun p k => if b.getLsbD k then p ^^^ (a.setWidth 15 <<< k) else p) 0#15

/-- Reduction modulo 0x11B of a 15-bit product, from its highest bit down (44_diffusion.md R191). -/
def reduce11B (p : BitVec 15) : Byte :=
  ([14, 13, 12, 11, 10, 9, 8].foldl
    (fun p k => if p.getLsbD k then p ^^^ (0x11B#15 <<< (k - 8)) else p) p).setWidth 8

end Sys2Proof.Machine
end

