-- ==== Sys2Proof/Machine/Substitution.lean ====
section
/-! DEFINITION. The substitution layer: the two constant tables and the operations over them
(42_substitution.md R150–R158). -/

namespace Sys2Proof.Machine

/-- The rows 0x to 7x of the SBox table, each row its 16 entries left to right (42_substitution.md R150). -/
def sboxRowsLow : List (BitVec 128) :=
  [0x637c777bf26b6fc53001672bfed7ab76#128, 0xca82c97dfa5947f0add4a2af9ca472c0#128,
   0xb7fd9326363ff7cc34a5e5f171d83115#128, 0x04c723c31896059a071280e2eb27b275#128,
   0x09832c1a1b6e5aa0523bd6b329e32f84#128, 0x53d100ed20fcb15b6acbbe394a4c58cf#128,
   0xd0efaafb434d338545f9027f503c9fa8#128, 0x51a3408f929d38f5bcb6da2110fff3d2#128]

/-- The rows 8x to Fx of the SBox table (42_substitution.md R150). -/
def sboxRowsHigh : List (BitVec 128) :=
  [0xcd0c13ec5f974417c4a77e3d645d1973#128, 0x60814fdc222a908846eeb814de5e0bdb#128,
   0xe0323a0a4906245cc2d3ac629195e479#128, 0xe7c8376d8dd54ea96c56f4ea657aae08#128,
   0xba78252e1ca6b4c6e8dd741f4bbd8b8a#128, 0x703eb5664803f60e613557b986c11d9e#128,
   0xe1f8981169d98e949b1e87e9ce5528df#128, 0x8ca1890dbfe6426841992d0fb054bb16#128]

/-- The rows 0x to 7x of the InvSBox table (42_substitution.md R151). -/
def invSboxRowsLow : List (BitVec 128) :=
  [0x52096ad53036a538bf40a39e81f3d7fb#128, 0x7ce339829b2fff87348e4344c4dee9cb#128,
   0x547b9432a6c2233dee4c950b42fac34e#128, 0x082ea16628d924b2765ba2496d8bd125#128,
   0x72f8f66486689816d4a45ccc5d65b692#128, 0x6c704850fdedb9da5e154657a78d9d84#128,
   0x90d8ab008cbcd30af7e45805b8b34506#128, 0xd02c1e8fca3f0f02c1afbd0301138a6b#128]

/-- The rows 8x to Fx of the InvSBox table (42_substitution.md R151). -/
def invSboxRowsHigh : List (BitVec 128) :=
  [0x3a9111414f67dcea97f2cfcef0b4e673#128, 0x96ac7422e7ad3585e2f937e81c75df6e#128,
   0x47f11a711d29c5896fb7620eaa18be1b#128, 0xfc563e4bc6d279209adbc0fe78cd5af4#128,
   0x1fdda8338807c731b11210592780ec5f#128, 0x60517fa919b54a0d2de57a9f93c99cef#128,
   0xa0e03b4dae2af5b0c8ebbb3c83539961#128, 0x172b047eba77d626e169146355210c7d#128]

/-- The entry of a 256-entry table at byte `b`: row the high nibble, column the low nibble, the row's first
entry its most significant byte (42_substitution.md R150, R151). `rows` has 16 rows, so a row is always found. -/
def romEntry (rows : List (BitVec 128)) (b : Byte) : Byte :=
  (rows.getD (b.toNat / 16) 0#128).extractLsb' (120 - 8 * (b.toNat % 16)) 8

/-- The forward table: `SBox[b]` (42_substitution.md R150). -/
def sboxEntry (b : Byte) : Byte := romEntry (sboxRowsLow ++ sboxRowsHigh) b

/-- The inverse table: `InvSBox[b]` (42_substitution.md R151). -/
def invSboxEntry (b : Byte) : Byte := romEntry (invSboxRowsLow ++ invSboxRowsHigh) b

/-- SubByte (42_substitution.md R152). -/
def subByte (b : Byte) : Byte := sboxEntry b

/-- InvSubByte (42_substitution.md R153). -/
def invSubByte (b : Byte) : Byte := invSboxEntry b

/-- SubWord: each byte of the word, positions kept (42_substitution.md R154). -/
def subWord (w : Word) : Word :=
  word (subByte (wordByte w 0)) (subByte (wordByte w 1)) (subByte (wordByte w 2)) (subByte (wordByte w 3))

/-- SubBytes (42_substitution.md R155). -/
def subBytes (s : CState) : CState := matrix fun r c => subByte s[r.val][c.val]

/-- InvSubBytes (42_substitution.md R156). -/
def invSubBytes (s : CState) : CState := matrix fun r c => invSubByte s[r.val][c.val]

/-- The affine map A of the algebraic S-box definition (42_substitution.md R158). -/
def sboxAffine (b : Byte) : Byte :=
  b ^^^ b.rotateLeft 1 ^^^ b.rotateLeft 2 ^^^ b.rotateLeft 3 ^^^ b.rotateLeft 4 ^^^ 0x63#8

end Sys2Proof.Machine
end

