-- ==== Sys2Proof/Machine/KeySchedule.lean ====
section
/-! DEFINITION. The round-constant generator (41_round_constants.md R140–R144) and the key-schedule expander
(43_key_schedule.md R170–R181), stepped by the sequencer phase EXPAND. -/

namespace Sys2Proof.Machine

/-- The recurrence of the round constants (41_round_constants.md R140). -/
def rconNext (t : Byte) : Byte :=
  if t.toNat < 0x80 then (t.setWidth 9 <<< 1).setWidth 8
  else ((t.setWidth 9 <<< 1) ^^^ 0x11B#9).setWidth 8

/-- The loop of RoundConstants: `count` more entries from index `i`, `t` being the entry before
(41_round_constants.md R140). -/
def rconLoop : Nat → Nat → Byte → Vector Byte 10 → Attempt (Vector Byte 10)
  | 0, _, _, rc => .ok rc
  | count + 1, i, t, rc => do
    let rc' ← writeElem .rc rc i (rconNext t)
    rconLoop count (i + 1) (rconNext t) rc'

/-- RoundConstants(N) into the table `rc` (41_round_constants.md R140). A length other than 7, 8 or 10 is refused
(R143). -/
def roundConstants (n : Nat) (rc : Vector Byte 10) : Attempt (Vector Byte 10) :=
  if n = 7 ∨ n = 8 ∨ n = 10 then do
    let rc' ← writeElem .rc rc 0 0x01#8
    rconLoop (n - 1) 1 0x01#8 rc'
  else .error (.refused (.constantCount n))

/-- RotWord: the most significant byte moves to the least significant position (43_key_schedule.md R174). -/
def rotWord (w : Word) : Word := w.rotateLeft 8

/-- The word `W[i]` of the expansion, `i ≥ Nk` (43_key_schedule.md R170): the round-constant word (R172), then the
cases of R173, R175 and R176 in that order of test. -/
def expandWord (ks : KeySize) (rc : Vector Byte 10) (w : Vector Word 60) (i : Nat) : Attempt Word := do
  let c ← readElem .rc rc (i / nkOf ks - 1)
  let prev ← readElem .w w (i - 1)
  let back ← readElem .w w (i - nkOf ks)
  if nkOf ks = 8 ∧ (i - 4) % nkOf ks = 0 then
    return subWord prev ^^^ back
  else if (i - nkOf ks) % nkOf ks = 0 then
    return (subWord (rotWord prev) ^^^ word c 0#8 0#8 0#8) ^^^ back
  else
    return prev ^^^ back

/-- The part of the state the expansion steps: the phase, the index and the word file (10_state.md R43). -/
structure Expander where
  seq : Seq
  ki : BitVec 6
  w : Vector Word 60
  deriving DecidableEq, Repr

/-- One step of phase EXPAND: write `W[KI]`, then move KI to the next index, or end at the last one
(43_key_schedule.md R170, R180). -/
def expandStep (ks : KeySize) (rc : Vector Byte 10) (e : Expander) : Attempt Expander :=
  if e.seq = .expand then do
    let x ← expandWord ks rc e.w e.ki.toNat
    let w' ← writeElem .w e.w e.ki.toNat x
    if e.ki.toNat + 1 = scheduleLen ks then return ⟨.done, e.ki, w'⟩
    else return ⟨.expand, e.ki + 1, w'⟩
  else .error (.refused .sequencerState)

/-- `count` steps of phase EXPAND. -/
def expandSteps (ks : KeySize) (rc : Vector Byte 10) : Nat → Expander → Attempt Expander
  | 0, e => .ok e
  | count + 1, e => do
    let e' ← expandStep ks rc e
    expandSteps ks rc count e'

/-- KeyExpansion: the key words into `W[0..Nk-1]`, then phase EXPAND with KI from Nk up to 4(Nr+1)-1
(43_key_schedule.md R170, R180). -/
def keyExpansion (ks : KeySize) (key : Vector Word 8) (rc : Vector Byte 10) (w : Vector Word 60) :
    Attempt Expander := do
  let w' ← memWrite .w w 0 (key.toList.take (nkOf ks))
  expandSteps ks rc (scheduleLen ks - nkOf ks) ⟨.expand, BitVec.ofNat 6 (nkOf ks), w'⟩

end Sys2Proof.Machine
end

