-- ==== Sys2Proof/Machine/SessionCommands.lean ====
section
/-! DEFINITION. The session commands CREATE_SESSION and CLOSE_SESSION (47_commands.md R271–R275, R280). -/

namespace Sys2Proof.Machine

/-- The opening of a session once its checks have passed: CONFIG, the round constants, the key schedule, the chaining
context, then SESSION = OPEN and STATUS = OK (47_commands.md R271). The sequencer is READY when the results are
written (45_round_pipeline.md R230; 43_key_schedule.md R180). -/
def openSession (cons : Construction) (ks : KeySize) (s : State) : Attempt State := do
  let s1 : State := { s with config := packConfig ks (constructionBits cons) }
  let rc ← roundConstants (nrcOf ks) s1.rc
  let e ← keyExpansion ks (keyOperand s1) rc s1.w
  let s2 := setupChain (cons == .cbc) { s1 with rc := rc, w := e.w, ki := e.ki }
  return { s2 with seq := .ready, session := .opened, status := .ok }

/-- CREATE_SESSION after its release: the checks in the order of 60_exceptions.md R320, then the opening
(47_commands.md R271–R274). -/
def createChecked (cons : Construction) (klen : BitVec 6) (ivlen : BitVec 5) (s : State) : Attempt State :=
  match keySizeOfBytes klen.toNat with
  | none => .ok (raiseError .invalidKeyLength s)
  | some ks =>
    if cons = .gcm then .ok (raiseError .unsupportedConstruction s)
    else if cons = .cbc ∧ ivlen.toNat ≠ 16 then .ok (raiseError .invalidIvLength s)
    else openSession cons ks s

/-- CREATE_SESSION: it first releases any context, then runs (47_commands.md R271). -/
def execCreateSession (cons : Construction) (klen : BitVec 6) (ivlen : BitVec 5) (s : State) :
    Host.Outcome State Fault Refusal :=
  outcomeOf (createChecked cons klen ivlen (release s))

/-- CLOSE_SESSION (47_commands.md R280). -/
def execCloseSession (s : State) : Host.Outcome State Fault Refusal :=
  if s.session = .idle then .next (raiseError .noSession s)
  else .next { release s with status := .ok }

end Sys2Proof.Machine
end

