-- ==== Sys2Proof/Machine/Diffusion.lean ====
section
/-! DEFINITION. The diffusion layer: row rotation, column mixing, their inverses and the layout transpose
(44_diffusion.md R194–R202). -/

namespace Sys2Proof.Machine

/-- ShiftRows: the byte of row `r`, column `(c + r) mod 4` moves to column `c` (44_diffusion.md R194). -/
def shiftRows (s : CState) : CState := matrix fun r c => s[r.val][(c + r : Fin 4).val]

/-- InvShiftRows: the byte of row `r`, column `(c - r) mod 4` moves to column `c` (44_diffusion.md R195). -/
def invShiftRows (s : CState) : CState := matrix fun r c => s[r.val][(c - r : Fin 4).val]

/-- The matrix M of MixColumns (44_diffusion.md R196). -/
def mixMatrix : CState :=
  #v[#v[0x02#8, 0x03#8, 0x01#8, 0x01#8], #v[0x01#8, 0x02#8, 0x03#8, 0x01#8],
     #v[0x01#8, 0x01#8, 0x02#8, 0x03#8], #v[0x03#8, 0x01#8, 0x01#8, 0x02#8]]

/-- The matrix MI of InvMixColumns (44_diffusion.md R197). -/
def invMixMatrix : CState :=
  #v[#v[0x0E#8, 0x0B#8, 0x0D#8, 0x09#8], #v[0x09#8, 0x0E#8, 0x0B#8, 0x0D#8],
     #v[0x0D#8, 0x09#8, 0x0E#8, 0x0B#8], #v[0x0B#8, 0x0D#8, 0x09#8, 0x0E#8]]

/-- The product of a matrix and the state over GF(2^8), column by column (44_diffusion.md R196). -/
def mixBy (m : CState) (s : CState) : CState :=
  matrix fun r c =>
    gmul m[r.val][0] s[0][c.val] ^^^ gmul m[r.val][1] s[1][c.val] ^^^
      gmul m[r.val][2] s[2][c.val] ^^^ gmul m[r.val][3] s[3][c.val]

/-- MixColumns (44_diffusion.md R196). -/
def mixColumns (s : CState) : CState := mixBy mixMatrix s

/-- InvMixColumns (44_diffusion.md R197). -/
def invMixColumns (s : CState) : CState := mixBy invMixMatrix s

/-- A block enters the state: `S[r][c] <- blk[r + 4c]` (10_state.md R40; never the literal reading, 44_diffusion.md
R202). -/
def loadState (blk : Block) : CState := matrix fun r c => blk[r.val + 4 * c.val]

/-- A block leaves the state: `out[r + 4c] <- S[r][c]` (10_state.md R40). -/
def storeState (s : CState) : Block := vec16 fun k => s[k.val % 4][k.val / 4]

/-- Swap of two bytes of a buffer. -/
def swapBytes (buf : Block) (i j : Fin 16) : Block := (buf.set i.val buf[j.val]).set j.val buf[i.val]

/-- Transpose of a flat buffer: swap `buf[4i + j]` and `buf[4j + i]` for `i < j` (44_diffusion.md R200). -/
def transpose (buf : Block) : Block :=
  [((1, 4) : Fin 16 × Fin 16), (2, 8), (3, 12), (6, 9), (7, 13), (11, 14)].foldl
    (fun b p => swapBytes b p.1 p.2) buf

/-- The state a flat buffer `st[4r + c]` holds (44_diffusion.md R201). -/
def stateOfFlat (buf : Block) : CState := matrix fun r c => buf[4 * r.val + c.val]

end Sys2Proof.Machine
end

