-- ==== Sys2Proof/Machine/Pipeline.lean ====
section
/-! DEFINITION. The round pipeline: the round-key mixer, the round sequencer and the forward and inverse sequences
(45_round_pipeline.md R220–R232). The host commands run the sequencer; `cipher` and `invCipher` are the sequences as
R224 and R226 write them. -/

namespace Sys2Proof.Machine

/-- Exclusive-or of four words into the columns of the state, most significant byte into the top row
(45_round_pipeline.md R221). -/
def addWords (k : Vector Word 4) (s : CState) : CState :=
  matrix fun r c => s[r.val][c.val] ^^^ wordByte k[c.val] r

/-- Round key r: the words `W[4r .. 4r+3]` (43_key_schedule.md R181). -/
def roundKey (w : Vector Word 60) (r : Nat) : Attempt (Vector Word 4) := do
  let k0 ← readElem .w w (4 * r)
  let k1 ← readElem .w w (4 * r + 1)
  let k2 ← readElem .w w (4 * r + 2)
  let k3 ← readElem .w w (4 * r + 3)
  return #v[k0, k1, k2, k3]

/-- AddRoundKey(r) (45_round_pipeline.md R221). -/
def addRoundKey (w : Vector Word 60) (r : Nat) (s : CState) : Attempt CState := do
  let k ← roundKey w r
  return addWords k s

/-- The part of the state the rounds step: the phase, the round index and the cipher state (10_state.md R43). -/
structure Pipe where
  seq : Seq
  rnd : BitVec 4
  st : CState
  deriving DecidableEq, Repr

/-- The start of Cipher: RND = 0, the load and AddRoundKey(0), then RND = 1 (45_round_pipeline.md R230). -/
def startEnc (w : Vector Word 60) (blk : Block) : Attempt Pipe := do
  let st ← addRoundKey w 0 (loadState blk)
  return ⟨.roundEnc, 1#4, st⟩

/-- One step of phase ROUND_ENC: a full round while 1 ≤ RND ≤ Nr-1, and at RND = Nr the final round, which has no
MixColumns and ends in DONE (45_round_pipeline.md R225, R230). -/
def encStep (w : Vector Word 60) (nr : BitVec 4) (p : Pipe) : Attempt Pipe :=
  if p.seq = .roundEnc ∧ 1 ≤ p.rnd.toNat ∧ p.rnd.toNat < nr.toNat then do
    let st ← addRoundKey w p.rnd.toNat (mixColumns (shiftRows (subBytes p.st)))
    return ⟨.roundEnc, p.rnd + 1, st⟩
  else if p.seq = .roundEnc ∧ p.rnd = nr then do
    let st ← addRoundKey w nr.toNat (shiftRows (subBytes p.st))
    return ⟨.done, p.rnd, st⟩
  else .error (.refused .sequencerState)

/-- The start of InvCipher: RND = Nr, the load and AddRoundKey(Nr), then RND = Nr - 1 (45_round_pipeline.md R231). -/
def startDec (w : Vector Word 60) (nr : BitVec 4) (blk : Block) : Attempt Pipe := do
  let st ← addRoundKey w nr.toNat (loadState blk)
  return ⟨.roundDec, nr - 1, st⟩

/-- One step of phase ROUND_DEC: an inverse round while RND ≥ 1, and at RND = 0 the last step, which has no
InvMixColumns and ends in DONE (45_round_pipeline.md R227, R231). -/
def decStep (w : Vector Word 60) (p : Pipe) : Attempt Pipe :=
  if p.seq = .roundDec ∧ 1 ≤ p.rnd.toNat then do
    let st ← addRoundKey w p.rnd.toNat (invSubBytes (invShiftRows p.st))
    return ⟨.roundDec, p.rnd - 1, invMixColumns st⟩
  else if p.seq = .roundDec then do
    let st ← addRoundKey w 0 (invSubBytes (invShiftRows p.st))
    return ⟨.done, p.rnd, st⟩
  else .error (.refused .sequencerState)

/-- `count` steps of the sequencer; it cannot stop between rounds, skip one or repeat one (45_round_pipeline.md
R232). -/
def roundSteps (f : Pipe → Attempt Pipe) : Nat → Pipe → Attempt Pipe
  | 0, p => .ok p
  | count + 1, p => do
    let p' ← f p
    roundSteps f count p'

/-- The sequencer's whole run for one block: the start, then Nr steps up to DONE (45_round_pipeline.md R230,
R231). -/
def runRounds (m : Mode) (w : Vector Word 60) (nr : BitVec 4) (blk : Block) : Attempt Pipe :=
  match m with
  | .enc => do
    let p ← startEnc w blk
    roundSteps (encStep w nr) nr.toNat p
  | .dec => do
    let p ← startDec w nr blk
    roundSteps (decStep w) nr.toNat p

/-- The pipeline run of a command: refused with no open session or with Nr not in {10, 12, 14} (45_round_pipeline.md
R223); otherwise the rounds run over W with Nr = CONFIG.NR (R220), S and the sequencer keep what they leave, and the
state is read out (R224, R226). -/
def runPipeline (m : Mode) (blk : Block) (s : State) : Attempt (State × Block) :=
  if s.session ≠ .opened then .error (.refused .pipelineWithoutSession)
  else if configNr s.config = 10#4 ∨ configNr s.config = 12#4 ∨ configNr s.config = 14#4 then do
    let p ← runRounds m s.w (configNr s.config) blk
    return ({ s with seq := p.seq, rnd := p.rnd, st := p.st }, storeState p.st)
  else .error (.refused (.roundCount (configNr s.config).toNat))

/-- The middle rounds of Cipher, from round `rnd` on, `count` of them (45_round_pipeline.md R224). -/
def forwardRounds (w : Vector Word 60) : Nat → Nat → CState → Attempt CState
  | 0, _, s => .ok s
  | count + 1, rnd, s => do
    let s' ← addRoundKey w rnd (mixColumns (shiftRows (subBytes s)))
    forwardRounds w count (rnd + 1) s'

/-- Cipher(blk), as the pseudocode of 45_round_pipeline.md R224 writes it. -/
def cipher (w : Vector Word 60) (nr : Nat) (blk : Block) : Attempt Block := do
  let s ← addRoundKey w 0 (loadState blk)
  let s ← forwardRounds w (nr - 1) 1 s
  let s ← addRoundKey w nr (shiftRows (subBytes s))
  return storeState s

/-- The middle rounds of InvCipher, from round `rnd` down to 1 (45_round_pipeline.md R226). -/
def inverseRounds (w : Vector Word 60) : Nat → CState → Attempt CState
  | 0, s => .ok s
  | rnd + 1, s => do
    let s' ← addRoundKey w (rnd + 1) (invSubBytes (invShiftRows s))
    inverseRounds w rnd (invMixColumns s')

/-- InvCipher(blk), as the pseudocode of 45_round_pipeline.md R226 writes it. -/
def invCipher (w : Vector Word 60) (nr : Nat) (blk : Block) : Attempt Block := do
  let s ← addRoundKey w nr (loadState blk)
  let s ← inverseRounds w (nr - 1) s
  let s ← addRoundKey w 0 (invSubBytes (invShiftRows s))
  return storeState s

end Sys2Proof.Machine
end

