-- ==== Sys2Proof/Machine/Chaining.lean ====
section
/-! DEFINITION. The chaining mode: the ECB bypass and the CBC feedback (46_chaining.md R250–R261). -/

namespace Sys2Proof.Machine

/-- ECB: the pipeline alone; IV, PREV, FIRST and CAP are neither read nor written (46_chaining.md R255). -/
def ecbBlock (m : Mode) (blk : Block) (s : State) : Attempt (State × Block) := runPipeline m blk s

/-- CBC encrypt: the chaining value is read first, then the block goes through Cipher, and the output becomes PREV
(46_chaining.md R251, R252). -/
def cbcEncrypt (blk : Block) (s : State) : Attempt (State × Block) := do
  let y ← runPipeline .enc (xorBlock blk (chainValue s)) s
  return (advanceChain y.2 y.1, y.2)

/-- CBC decrypt: the incoming block is captured in CAP before anything else, InvCipher runs on CAP, and PREV is
written from CAP (46_chaining.md R253, R254). -/
def cbcDecrypt (blk : Block) (s : State) : Attempt (State × Block) := do
  let captured : State := { s with cap := blk }
  let y ← runPipeline .dec captured.cap captured
  return (advanceChain y.1.cap y.1, xorBlock y.2 (chainValue captured))

/-- The block function of a TRANSFORM by CONFIG.CONS and MODE (46_chaining.md R250; 47_commands.md, Transform). -/
def transformBlock (m : Mode) (blk : Block) (s : State) : Attempt (State × Block) :=
  if configCons s.config = 0#2 then ecbBlock m blk s
  else
    match m with
    | .enc => cbcEncrypt blk s
    | .dec => cbcDecrypt blk s

end Sys2Proof.Machine
end

