-- ==== Sys2Proof/Machine/Transform.lean ====
section
/-! DEFINITION. The block commands TRANSFORM.ENC and TRANSFORM.DEC (47_commands.md R276–R279). -/

namespace Sys2Proof.Machine

/-- The successful end of a TRANSFORM: DOUT and STATUS are written, then the sequencer is READY (47_commands.md R276,
R277; 45_round_pipeline.md R230). -/
def writeResult (r : State × Block) : State := { r.1 with dout := r.2, seq := .ready, status := .ok }

/-- `Transform(MODE, DLEN)`: the checks in the order of 60_exceptions.md R320, then the block (47_commands.md R276–R278).
A DLEN above 16 spells no command and is IllegalCommand in every state (60_exceptions.md R320); the decoder answers
none (30_encoding.md R113). -/
def transform (m : Mode) (dlen : BitVec 5) (s : State) : Attempt State :=
  if ¬ DlenOk dlen then .ok (raiseError .illegalCommand s)
  else if s.session = .idle then .ok (raiseError .noSession s)
  else if s.session = .failed then .ok (raiseError .sessionAborted s)
  else if dlen.toNat < 16 then .ok (raiseError .incompleteFinalBlock s)
  else do
    let r ← transformBlock m (dataOperand s) s
    return writeResult r

/-- TRANSFORM.ENC (47_commands.md R276). -/
def execTransformEnc (dlen : BitVec 5) (s : State) : Host.Outcome State Fault Refusal :=
  outcomeOf (transform .enc dlen s)

/-- TRANSFORM.DEC (47_commands.md R277). -/
def execTransformDec (dlen : BitVec 5) (s : State) : Host.Outcome State Fault Refusal :=
  outcomeOf (transform .dec dlen s)

end Sys2Proof.Machine
end

