-- ==== Sys2Proof/Machine/Dispatch.lean ====
section
/-! DEFINITION. One arm per instruction (47_commands.md R270). -/

namespace Sys2Proof.Machine

def exec (i : Instr) (s : State) : Host.Outcome State Fault Refusal :=
  match i with
  | .createSession cons klen ivlen => Sys2Proof.Machine.execCreateSession cons klen ivlen s
  | .transformEnc dlen => Sys2Proof.Machine.execTransformEnc dlen s
  | .transformDec dlen => Sys2Proof.Machine.execTransformDec dlen s
  | .closeSession => Sys2Proof.Machine.execCloseSession s

end Sys2Proof.Machine
end

