-- ==== Sys2Proof/Machine/Execute.lean ====
section
/-! DEFINITION. The run of one command from its latches (47_commands.md R270) and what an edge of the host's inputs
does (30_encoding.md R100–R106; 70_reset_and_hazards.md R350–R352). -/

namespace Sys2Proof.Machine

/-- A finished command's state, with the command completed. -/
def completeOutcome : Host.Outcome State Fault Refusal → Host.Outcome State Fault Refusal
  | .next s => .next (complete s)
  | .fault f => .fault f
  | .refused r => .refused r

/-- The command in CMDL: decoded, run, completed. An Illegal word raises IllegalCommand (47_commands.md R270;
60_exceptions.md R311). -/
def executeLatched (s : State) : Host.Outcome State Fault Refusal :=
  match decode s.cmdl with
  | .error _ => .next (complete (raiseError .illegalCommand s))
  | .ok i => completeOutcome (exec i s)

/-- One transaction with the levels `p` on the input ports. Reset overrides everything (70_reset_and_hazards.md R350,
R352). Otherwise an offered command is accepted and runs to its response (30_encoding.md R100, R103, R104). With no
command offered nothing happens (60_exceptions.md R335). -/
def transact (p : PortsIn) (s : State) : Host.Outcome State Fault Refusal :=
  if p.rst then .next (resetEdge s)
  else if p.cmdValid then executeLatched (accept p s)
  else .next (quiet s)

/-- The input ports with the host driving nothing. -/
def idlePorts : PortsIn := ⟨false, false, 0#32, 0#256, 0#128, 0#128⟩

/-- What the host drives now, and the state with that input used up. -/
def takeInput (s : State) : PortsIn × State :=
  match s.host with
  | [] => (idlePorts, s)
  | p :: rest => (p, { s with host := rest })

/-- A step. While BUSY = 1 no command is accepted (30_encoding.md R105): the command in the latches runs to its
response and the host holds its inputs, unless it drives a reset (70_reset_and_hazards.md R352). Otherwise the next
input of the host is one transaction. -/
def stepOnce (s : State) : Host.Outcome State Fault Refusal :=
  let t := takeInput s
  if s.busy ∧ ¬ t.1.rst then executeLatched s
  else transact t.1 t.2

/-- The ports that offer a command word with every operand port 0, as the `.word` directive does (30_encoding.md
R121). -/
def wordPorts (cmd : BitVec 32) : PortsIn := { idlePorts with cmdValid := true, cmd := cmd }

end Sys2Proof.Machine
end

