-- ==== Sys2Proof/Machine/Step.lean ====
section
/-! DEFINITION. One step of AES-CORE is one transaction with its host (30_encoding.md R100). -/

namespace Sys2Proof.Machine

/-- One step (30_encoding.md R100; Machine/Execute.lean). -/
def step (s : State) : Host.Outcome State Fault Refusal := stepOnce s

/-- `s` with the host offering the command word `w` next, its operand ports 0 (30_encoding.md R121, `.word`). BUSY is
cleared, because a busy core accepts no command (R105). -/
def State.withFetchWord (s : State) (nbits w : Nat) : State :=
  { s with busy := false, host := wordPorts (BitVec.ofNat 32 (w % 2 ^ nbits)) :: s.host }

end Sys2Proof.Machine
end

