-- ==== Sys2Proof/Machine/Assembler.lean ====
section
/-! DEFINITION. The assembler of 30_encoding.md R119–R122: from a line of assembly to the levels on the input ports.
What it refuses gives no command word (93_implementation_defined.md U14). Text is a list of characters. -/

namespace Sys2Proof.Machine

/-- The value of a hexadecimal digit, in either case. -/
def hexDigit (c : Char) : Option Nat :=
  let n := c.toNat
  if 48 ≤ n ∧ n ≤ 57 then some (n - 48)
  else if 97 ≤ n ∧ n ≤ 102 then some (n - 87)
  else if 65 ≤ n ∧ n ≤ 70 then some (n - 55)
  else none

/-- Hex text as a byte string, high nibble first; text of odd length or with another character is refused
(30_encoding.md R120). -/
def hexBytes : List Char → Option (List Byte)
  | [] => some []
  | [_] => none
  | hi :: lo :: rest => do
    let h ← hexDigit hi
    let l ← hexDigit lo
    let bs ← hexBytes rest
    return BitVec.ofNat 8 (16 * h + l) :: bs

/-- A port of `width` bits filled from its most significant byte with a byte string, the missing bytes 0; byte `n`
goes to bits `[width-1-8n : width-8-8n]` (30_encoding.md R120). -/
def fillPort (width : Nat) (bs : List Byte) : BitVec width :=
  BitVec.ofNat width (bs.foldl (fun acc b => 256 * acc + b.toNat) 0) <<< (width - 8 * bs.length)

/-- The port value of an operand text, refused above `maxBytes` bytes (30_encoding.md R120). -/
def operandPort (width maxBytes : Nat) (text : List Char) : Option (BitVec width) := do
  let bs ← hexBytes text
  if bs.length ≤ maxBytes then return fillPort width bs else none

/-- A line of assembly: the three native forms (30_encoding.md R119), then the pseudo-instructions and the directive
(R121). Operand text that is not written is empty. -/
inductive AsmLine where
  | create (cons : Construction) (klen ivlen : Nat) (key iv : List Char)
  | transform (m : Mode) (dlen : Nat) (din : List Char)
  | close
  | createEcb (key : List Char)
  | createCbc (key iv : List Char)
  | createGcm (key : List Char)
  | enc (block : List Char)
  | dec (block : List Char)
  | wordDirective (w : List Char)
  deriving DecidableEq, Repr

/-- The instruction of a `transform` line. -/
def transformInstr (m : Mode) (dlen : Nat) : Instr :=
  match m with
  | .enc => .transformEnc (BitVec.ofNat 5 dlen)
  | .dec => .transformDec (BitVec.ofNat 5 dlen)

/-- The ports of a native `create` line; fields out of range are refused (30_encoding.md R119, R120). -/
def assembleCreate (cons : Construction) (klen ivlen : Nat) (key iv : List Char) : Option PortsIn := do
  let k ← operandPort 256 32 key
  let v ← operandPort 128 16 iv
  if klen ≤ 63 ∧ ivlen ≤ 31 then
    return { wordPorts (encode (.createSession cons (BitVec.ofNat 6 klen) (BitVec.ofNat 5 ivlen))) with
      keyIn := k, ivIn := v }
  else none

/-- The ports of a native `transform` line; a DLEN above 31 is refused, one of 17..31 spells an illegal word
(30_encoding.md R109, R119). -/
def assembleTransform (m : Mode) (dlen : Nat) (din : List Char) : Option PortsIn := do
  let d ← operandPort 128 16 din
  if dlen ≤ 31 then return { wordPorts (encode (transformInstr m dlen)) with din := d } else none

/-- The word of a `.word` directive: `0x` and 8 hex characters (30_encoding.md R121). -/
def directiveWord : List Char → Option (BitVec 32)
  | '0' :: 'x' :: rest =>
    if rest.length = 8 then do
      let bs ← hexBytes rest
      return fillPort 32 bs
    else none
  | _ => none

/-- The assembler: a line to the input ports (30_encoding.md R119–R121). The blocks of `enc` and `dec` are 32 hex
characters. -/
def assemble : AsmLine → Option PortsIn
  | .create cons klen ivlen key iv => assembleCreate cons klen ivlen key iv
  | .transform m dlen din => assembleTransform m dlen din
  | .close => some (wordPorts (encode .closeSession))
  | .createEcb key => assembleCreate .ecb (key.length / 2) 0 key []
  | .createCbc key iv => assembleCreate .cbc (key.length / 2) (iv.length / 2) key iv
  | .createGcm key => assembleCreate .gcm (key.length / 2) 0 key []
  | .enc block => if block.length = 32 then assembleTransform .enc 16 block else none
  | .dec block => if block.length = 32 then assembleTransform .dec 16 block else none
  | .wordDirective w => (directiveWord w).map wordPorts

/-- The characters that part the words of a line: blanks and the commas of 30_encoding.md R119. -/
def isSeparator (c : Char) : Bool := c == ' ' || c == '\t' || c == ','

/-- The words of a text, `cur` being the word under way, its last character first. -/
def wordsOfText : List Char → List Char → List (List Char)
  | [], cur => if cur.isEmpty then [] else [cur.reverse]
  | c :: cs, cur =>
    if isSeparator c then
      if cur.isEmpty then wordsOfText cs [] else cur.reverse :: wordsOfText cs []
    else wordsOfText cs (c :: cur)

/-- The words of a line, its comment from `;` on left out (30_encoding.md R119). -/
def wordsOfLine (line : List Char) : List (List Char) :=
  wordsOfText (line.takeWhile (fun c => c != ';')) []

/-- A decimal number (30_encoding.md R119). -/
def decimal (text : List Char) : Option Nat :=
  if text.isEmpty then none
  else text.foldl
    (fun acc c => acc.bind fun n =>
      if 48 ≤ c.toNat ∧ c.toNat ≤ 57 then some (10 * n + (c.toNat - 48)) else none) (some 0)

/-- The value text of a word `name=value` (30_encoding.md R119). -/
def fieldText (name : String) (w : List Char) : Option (List Char) :=
  if (name.toList ++ ['=']).isPrefixOf w then some (w.drop (name.length + 1)) else none

/-- An operand that may be left out: its text, empty if it is not next, and the words after it
(30_encoding.md R119). -/
def optionalOperand (name : String) : List (List Char) → List Char × List (List Char)
  | [] => ([], [])
  | w :: ws =>
    match fieldText name w with
    | some text => (text, ws)
    | none => ([], w :: ws)

/-- The construction a word names (30_encoding.md R119). -/
def constructionOfText (w : List Char) : Option Construction :=
  if w = "ecb".toList then some .ecb
  else if w = "cbc".toList then some .cbc
  else if w = "gcm".toList then some .gcm
  else none

/-- The direction a word names (30_encoding.md R119). -/
def modeOfText (w : List Char) : Option Mode :=
  if w = "enc".toList then some .enc
  else if w = "dec".toList then some .dec
  else none

/-- The words of a native `create` line after the mnemonic (30_encoding.md R119). -/
def parseCreate : List (List Char) → Option AsmLine
  | c :: k :: v :: ops => do
    let cons ← constructionOfText c
    let klen ← (fieldText "klen" k).bind decimal
    let ivlen ← (fieldText "ivlen" v).bind decimal
    let key := optionalOperand "key" ops
    let iv := optionalOperand "iv" key.2
    if iv.2.isEmpty then return .create cons klen ivlen key.1 iv.1 else none
  | _ => none

/-- The words of a native `transform` line after the mnemonic (30_encoding.md R119). -/
def parseTransform : List (List Char) → Option AsmLine
  | d :: n :: ops => do
    let m ← modeOfText d
    let dlen ← (fieldText "dlen" n).bind decimal
    let din := optionalOperand "din" ops
    if din.2.isEmpty then return .transform m dlen din.1 else none
  | _ => none

/-- The words of a pseudo-instruction, of the directive or of `close` (30_encoding.md R119, R121). -/
def parsePseudo (name : List Char) : List (List Char) → Option AsmLine
  | [] => if name = "close".toList then some .close else none
  | [a] =>
    if name = "create.ecb".toList then some (.createEcb a)
    else if name = "create.gcm".toList then some (.createGcm a)
    else if name = "enc".toList then some (.enc a)
    else if name = "dec".toList then some (.dec a)
    else if name = ".word".toList then some (.wordDirective a)
    else none
  | [a, b] => if name = "create.cbc".toList then some (.createCbc a b) else none
  | _ => none

/-- A line of text as a line of assembly; a line without a command, or of no form of 30_encoding.md R119 and R121,
gives none. -/
def parseLine (line : List Char) : Option AsmLine :=
  match wordsOfLine line with
  | [] => none
  | name :: rest =>
    if name = "create".toList then parseCreate rest
    else if name = "transform".toList then parseTransform rest
    else parsePseudo name rest

/-- A line of text to the input ports (30_encoding.md R119–R121). -/
def assembleText (line : List Char) : Option PortsIn := (parseLine line).bind assemble

end Sys2Proof.Machine
end

