-- ==== Sys2Proof/Machine/Clock.lean ====
section
/-! DEFINITION. The port protocol edge by edge (30_encoding.md R101–R106; 70_reset_and_hazards.md R350–R352, R370):
how one transaction of Machine/Execute.lean is carried over clock cycles. The latency is an open parameter
(Config.latencyExtra), so nothing here has a known length. -/

namespace Sys2Proof.Machine

/-- The core and the number of edges the accepted command has been executing. The count is the model's own: which
edge completes a command is not state of AES-CORE (log entry 6). -/
structure Clocked where
  core : State
  age : Nat
  deriving DecidableEq, Repr

/-- The latency class of a command word: that of its opcode, or that of CLOSE_SESSION for a reserved opcode
(30_encoding.md R106). -/
def latencyClassOf (cmd : BitVec 32) : Config.LatencyClass :=
  if opField cmd = 1#4 then .create
  else if opField cmd = 2#4 then .transform
  else .close

/-- The round count a latency may depend on (92_eei_decisions.md, open parameters): the one the key length of a
CREATE_SESSION gives, else CONFIG.NR. -/
def latencyRounds (s : State) : Nat :=
  if opField s.cmdl = 1#4 then
    match keySizeOfBytes (klenField s.cmdl).toNat with
    | some ks => nrOf ks
    | none => 0
  else (configNr s.config).toNat

/-- Whether the checks of the latched command pass: its run ends with STATUS = OK. -/
def checksPass (s : State) : Bool :=
  match executeLatched s with
  | .next s' => s'.status == .ok
  | _ => false

/-- The cycles from acceptance to completion: at least 1 (00_scope.md R10; 30_encoding.md R106; 70_reset_and_hazards.md
R370). That of CLOSE_SESSION depends on its class alone (92_eei_decisions.md, open parameters). -/
def latency (s : State) : Nat :=
  match latencyClassOf s.cmdl with
  | .close => Config.latencyExtra .close 0 true + 1
  | cls => Config.latencyExtra cls (latencyRounds s) (checksPass s) + 1

/-- A core with the count of a new command or of none. -/
def freshClock : Host.Outcome State Fault Refusal → Host.Outcome Clocked Fault Refusal
  | .next s => .next ⟨s, 0⟩
  | .fault f => .fault f
  | .refused r => .refused r

/-- One rising edge of `clk` with the levels `p` on the input ports: a reset (70_reset_and_hazards.md R350, R352), or
a further cycle or the completion of the executing command (30_encoding.md R104, R105), or an acceptance (R103), or
nothing. -/
def clockEdge (p : PortsIn) (c : Clocked) : Host.Outcome Clocked Fault Refusal :=
  if p.rst then .next ⟨resetEdge c.core, 0⟩
  else if c.core.busy then
    if c.age + 1 < latency c.core then .next ⟨quiet c.core, c.age + 1⟩
    else freshClock (executeLatched c.core)
  else if p.cmdValid then .next ⟨accept p c.core, 0⟩
  else .next ⟨quiet c.core, 0⟩

/-- A run of edges, the port levels at each in order. -/
def clockRun : List PortsIn → Clocked → Host.Outcome Clocked Fault Refusal
  | [], c => .next c
  | p :: ps, c =>
    match clockEdge p c with
    | .next c' => clockRun ps c'
    | .fault f => .fault f
    | .refused r => .refused r

end Sys2Proof.Machine
end

