-- ==== Sys2Proof/Safety.lean ====
section
/-! DEFINITION. What counts as a good state and a good move of AES-CORE, in the terms the statements use: the
invariants of 10_state.md R48 and R49, the session life cycle of 47_commands.md R281, and what the host and the
hidden state may show (10_state.md R50, R51). -/

namespace Sys2Proof.Machine

/-- The word file before an expansion: all zero, as Release leaves it (60_exceptions.md R318). -/
def zeroWords : Vector Word 60 := Vector.replicate 60 0#32

/-- The round-constant table before it is written: all zero (60_exceptions.md R318). -/
def zeroConstants : Vector Byte 10 := Vector.replicate 10 0#8

/-- The word file `w` and the table `rc` are the expansion of the key words `key` and the constants of its size, with
zero above both (10_state.md R48). -/
def IsSchedule (ks : KeySize) (key : Vector Word 8) (rc : Vector Byte 10) (w : Vector Word 60) : Prop :=
  roundConstants (nrcOf ks) zeroConstants = .ok rc ∧
    ∃ e, keyExpansion ks key rc zeroWords = .ok e ∧ e.w = w

/-- What holds of the chaining context of an open session (10_state.md R48). -/
def ChainOk (cons : Construction) (s : State) : Prop :=
  (cons = .ecb → s.iv = zeroBlock ∧ s.prev = zeroBlock ∧ s.first = false) ∧
    (cons = .cbc → s.first = true → s.prev = zeroBlock)

/-- What holds while SESSION = OPEN (10_state.md R48). -/
def OpenOk (s : State) : Prop :=
  ∃ (ks : KeySize) (cons : Construction) (key : Vector Word 8),
    cons ≠ .gcm ∧ s.config = packConfig ks (constructionBits cons) ∧ IsSchedule ks key s.rc s.w ∧ ChainOk cons s

/-- What holds while SESSION is not OPEN: nothing of a session is left (10_state.md R49; CAP by 60_exceptions.md
R318). -/
def Released (s : State) : Prop :=
  s.config = 0#16 ∧ s.w = zeroWords ∧ s.rc = zeroConstants ∧ s.iv = zeroBlock ∧ s.prev = zeroBlock ∧
    s.cap = zeroBlock ∧ s.first = false

/-- A state between commands: no command is executing (10_state.md R34, R43), and R48 or R49 holds. -/
def Inv (s : State) : Prop :=
  s.busy = false ∧ s.seq = .ready ∧ (s.session = .opened → OpenOk s) ∧ (s.session ≠ .opened → Released s)

/-- The codes AES-CORE itself writes to STATUS (60_exceptions.md R310, R317). -/
def OwnStatus (e : Status) : Prop := e ≠ .illegalKeyCharacter ∧ e ≠ .allocationFailure

/-- The words that spell no command, as 30_encoding.md R115 lists them: reserved opcodes, reserved bits set, CONS = 3,
DLEN > 16. -/
def IllegalWord (cmd : BitVec 32) : Prop :=
  (cmd.extractLsb' 0 4 = 0#4 ∨ 4 ≤ (cmd.extractLsb' 0 4).toNat) ∨
  (cmd.extractLsb' 0 4 = 1#4 ∧
    (cmd.extractLsb' 6 2 ≠ 0#2 ∨ cmd.extractLsb' 14 2 ≠ 0#2 ∨ cmd.extractLsb' 21 11 ≠ 0#11 ∨
      cmd.extractLsb' 4 2 = 3#2)) ∨
  (cmd.extractLsb' 0 4 = 2#4 ∧
    (cmd.extractLsb' 5 3 ≠ 0#3 ∨ cmd.extractLsb' 13 19 ≠ 0#19 ∨ 16 < (cmd.extractLsb' 8 5).toNat)) ∨
  (cmd.extractLsb' 0 4 = 3#4 ∧ cmd.extractLsb' 4 28 ≠ 0#28)

/-- The row of the life-cycle table a command took: session before, what the word spells, status written, session
after (47_commands.md R281). -/
inductive SessionMove : Session → Except Illegal Instr → Status → Session → Prop where
  | illegal (b : Session) (r : Illegal) : SessionMove b (.error r) .illegalCommand b
  | created (b : Session) (c : Construction) (k : BitVec 6) (v : BitVec 5) :
      SessionMove b (.ok (.createSession c k v)) .ok .opened
  | createFailed (b : Session) (c : Construction) (k : BitVec 6) (v : BitVec 5) (e : Status)
      (he : e = .invalidKeyLength ∨ e = .unsupportedConstruction ∨ e = .invalidIvLength) :
      SessionMove b (.ok (.createSession c k v)) e .idle
  | transformIdle (i : Instr) (d : BitVec 5) (hi : i = .transformEnc d ∨ i = .transformDec d) :
      SessionMove .idle (.ok i) .noSession .idle
  | transformOk (i : Instr) (d : BitVec 5) (hi : i = .transformEnc d ∨ i = .transformDec d) :
      SessionMove .opened (.ok i) .ok .opened
  | transformPartial (i : Instr) (d : BitVec 5) (hi : i = .transformEnc d ∨ i = .transformDec d) :
      SessionMove .opened (.ok i) .incompleteFinalBlock .failed
  | transformFailed (i : Instr) (d : BitVec 5) (hi : i = .transformEnc d ∨ i = .transformDec d) :
      SessionMove .failed (.ok i) .sessionAborted .failed
  | closeIdle : SessionMove .idle (.ok .closeSession) .noSession .idle
  | closeOpened : SessionMove .opened (.ok .closeSession) .ok .idle
  | closeFailed : SessionMove .failed (.ok .closeSession) .ok .idle

/-- Two states that agree on everything but the hidden state of 10_state.md R50 (S, CAP, SEQ, RND, KI and the operand
latches) and what the host will drive. -/
def AgreeButHidden (s t : State) : Prop :=
  s.session = t.session ∧ s.config = t.config ∧ s.status = t.status ∧ s.busy = t.busy ∧ s.w = t.w ∧ s.rc = t.rc ∧
    s.iv = t.iv ∧ s.prev = t.prev ∧ s.first = t.first ∧ s.dout = t.dout ∧ s.rspValid = t.rspValid

/-- Two states that agree on everything that is no key, IV or data value: SESSION, CONFIG, STATUS, BUSY and the
command word (70_reset_and_hazards.md R370). -/
def AgreeOnControl (s t : State) : Prop :=
  s.session = t.session ∧ s.config = t.config ∧ s.status = t.status ∧ s.busy = t.busy ∧ s.cmdl = t.cmdl

/-- An open session whose CONFIG.NR is legal: what a TRANSFORM of 16 bytes needs to run (45_round_pipeline.md R223;
47_commands.md R276). -/
def CanTransform (s : State) : Prop :=
  s.session = .opened ∧ (configNr s.config = 10#4 ∨ configNr s.config = 12#4 ∨ configNr s.config = 14#4)

/-- One TRANSFORM of 16 bytes on the block `blk`: the state after, whose DOUT is the output block; `none` if it does
not answer STATUS = OK (46_chaining.md R258). -/
def transformOne (m : Mode) (blk : Block) (s : State) : Option State :=
  match exec (match m with | .enc => .transformEnc 16#5 | .dec => .transformDec 16#5) { s with dinl := blk } with
  | .next t => if t.status = .ok then some t else none
  | _ => none

/-- The blocks of a message given one by one in stream order: the output blocks, or `none` if a command fails
(46_chaining.md R258). -/
def transformStream (m : Mode) : List Block → State → Option (List Block)
  | [], _ => some []
  | b :: bs, s =>
    match transformOne m b s with
    | some t =>
      match transformStream m bs t with
      | some out => some (t.dout :: out)
      | none => none
    | none => none

end Sys2Proof.Machine
end

