-- ==== Sys2Proof/Certificates/Slice0/Obligations.lean ====
section
/-! DEFINITION. The statements for the provers. Each docstring says which rules of spec/ it formalises. -/

open Sys2Proof Sys2Proof.Machine

/-! ### Parameters and codes -/

/-- 00_scope.md R7, its table: Nk, Nr = Nk + 6, Nrc and the schedule length of each key size, and that the key length in
bytes chooses the size. -/
def Obligations.KeySizeParameters : Prop :=
  (nkOf .k128, nrOf .k128, nrcOf .k128, scheduleLen .k128) = (4, 10, 10, 44) ∧
  (nkOf .k192, nrOf .k192, nrcOf .k192, scheduleLen .k192) = (6, 12, 8, 52) ∧
  (nkOf .k256, nrOf .k256, nrcOf .k256, scheduleLen .k256) = (8, 14, 7, 60) ∧
  (∀ ks, nrOf ks = nkOf ks + 6 ∧ scheduleLen ks = 4 * (nrOf ks + 1)) ∧
  (∀ (n : Nat) (ks : KeySize), keySizeOfBytes n = some ks ↔ n = 4 * nkOf ks)

/-- 10_state.md R32 and 47_commands.md R275: the CONFIG values, their fields, and CONFIG[3:2] = 0. -/
def Obligations.ConfigFieldsReadBack : Prop :=
  (packConfig .k128 0#2, packConfig .k192 0#2, packConfig .k256 0#2) = (0xAA40#16, 0x8C60#16, 0x7E80#16) ∧
  (packConfig .k128 1#2, packConfig .k192 1#2, packConfig .k256 1#2) = (0xAA41#16, 0x8C61#16, 0x7E81#16) ∧
  ∀ (ks : KeySize) (cons : BitVec 2),
    configCons (packConfig ks cons) = cons ∧ (packConfig ks cons).extractLsb' 2 2 = 0#2 ∧
      (configNk (packConfig ks cons)).toNat = nkOf ks ∧ (configNr (packConfig ks cons)).toNat = nrOf ks ∧
      (configNrc (packConfig ks cons)).toNat = nrcOf ks

/-! ### Encoding -/

/-- 30_encoding.md R122: the worked encodings. -/
def Obligations.WorkedEncodings : Prop :=
  encode (.createSession .ecb 16#6 0#5) = 0x00001001#32 ∧
  encode (.createSession .ecb 24#6 0#5) = 0x00001801#32 ∧
  encode (.createSession .ecb 32#6 0#5) = 0x00002001#32 ∧
  encode (.createSession .cbc 16#6 16#5) = 0x00101011#32 ∧
  encode (.createSession .cbc 16#6 15#5) = 0x000F1011#32 ∧
  encode (.createSession .ecb 15#6 0#5) = 0x00000F01#32 ∧
  encode (.createSession .gcm 16#6 0#5) = 0x00001021#32 ∧
  encode (.transformEnc 16#5) = 0x00001002#32 ∧
  encode (.transformDec 16#5) = 0x00001012#32 ∧
  encode (.transformEnc 8#5) = 0x00000802#32 ∧
  encode .closeSession = 0x00000003#32

/-- 95_test_vectors.md L2.18: what a few words, written out from the formats of 30_encoding.md R108–R110, decode to. -/
def Obligations.DecodedWords : Prop :=
  decode 0b00000000000100000001000000010001#32 = .ok (.createSession .cbc 16#6 16#5) ∧
  decode 0b00000000000000000011111100000001#32 = .ok (.createSession .ecb 63#6 0#5) ∧
  decode 0b00000000000000000001000000000010#32 = .ok (.transformEnc 16#5) ∧
  decode 0b00000000000000000000111100010010#32 = .ok (.transformDec 15#5) ∧
  decode 0b00000000000000000000000000000011#32 = .ok .closeSession ∧
  decode 0x00001031#32 = .error .reservedConstruction ∧
  decode 0x00005001#32 = .error .reservedBits ∧
  decode 0x80001001#32 = .error .reservedBits ∧
  decode 0x00001102#32 = .error .dataTooLong ∧
  decode 0x00002002#32 = .error .reservedBits ∧
  decode 0x00000013#32 = .error .reservedBits ∧
  decode 0x00000000#32 = .error .reservedOpcode ∧
  decode 0xFFFFFFFF#32 = .error .reservedOpcode

/-- 30_encoding.md R108–R113: decoding the word of any well-formed instruction gives the instruction back, every operand
at every value its field admits. -/
def Obligations.DecodeEncodeRoundTrip : Prop :=
  ∀ i : Instr, WellFormed i = true → decode (encode i) = .ok i

/-- 30_encoding.md R108–R113, the other way: a word that decodes is the word of the instruction it decodes to, so a word
has one meaning and no bit of it is dropped; and the instruction is well formed. -/
def Obligations.EncodeDecodeRoundTrip : Prop :=
  ∀ (cmd : BitVec 32) (i : Instr), decode cmd = .ok i → encode i = cmd ∧ WellFormed i = true

/-- 30_encoding.md R113: the decoder's verdict on every command word. -/
def Obligations.DecoderFollowsPseudocode : Prop :=
  ∀ cmd : BitVec 32,
    (IllegalWord cmd ∧ ∃ r, decode cmd = .error r) ∨
    (¬ IllegalWord cmd ∧
      ((cmd.extractLsb' 0 4 = 1#4 ∧ ∃ c, constructionBits c = cmd.extractLsb' 4 2 ∧
          decode cmd = .ok (.createSession c (cmd.extractLsb' 8 6) (cmd.extractLsb' 16 5))) ∨
        (cmd.extractLsb' 0 4 = 2#4 ∧ cmd.getLsbD 4 = false ∧
          decode cmd = .ok (.transformEnc (cmd.extractLsb' 8 5))) ∨
        (cmd.extractLsb' 0 4 = 2#4 ∧ cmd.getLsbD 4 = true ∧
          decode cmd = .ok (.transformDec (cmd.extractLsb' 8 5))) ∨
        (cmd.extractLsb' 0 4 = 3#4 ∧ decode cmd = .ok .closeSession)))

/-! ### Steps, acceptance and reset -/

/-- 30_encoding.md R100, R103, R104, R105, 47_commands.md R270: while no command is executing, the next command the host
offers is decoded and run by `exec` on the state with the latches loaded from the ports; while one is executing, the
step runs the one in the latches, and takes nothing of the host's. Around `exec` the step only accepts (BUSY set,
`rsp_valid` low) and completes (BUSY cleared, `rsp_valid` high). A reset driven with the step overrides both
(70_reset_and_hazards.md R350, R352). That one step finishes a latched command is the model's choice (log entry 4). -/
def Obligations.StepRunsDecodedInstruction : Prop :=
  (∀ (s : State) (p : PortsIn) (rest : List PortsIn) (i : Instr),
    s.busy = false → s.host = p :: rest → p.rst = false → p.cmdValid = true → decode p.cmd = .ok i →
    step s = completeOutcome (exec i
      { s with
        host := rest
        cmdl := p.cmd
        keyl := wordsOfPort p.keyIn
        ivl := blockOfPort p.ivIn
        dinl := blockOfPort p.din
        busy := true
        rspValid := false })) ∧
  (∀ (s : State) (i : Instr), s.busy = true → (∀ p ∈ s.host.head?, p.rst = false) → decode s.cmdl = .ok i →
    step s = completeOutcome (exec i s)) ∧
  (∀ (s : State) (p : PortsIn) (rest : List PortsIn), s.host = p :: rest → p.rst = true →
    step s = .next { State.reset with host := rest }) ∧
  ∀ u : State, completeOutcome (.next u) = .next { u with busy := false, rspValid := true }

/-- 30_encoding.md R104, 60_exceptions.md R335: with no command offered, a step changes nothing but `rsp_valid`, which
is 0; and a host with nothing to drive offers none. The host's list of inputs is the model's own (log entry 1). -/
def Obligations.StepWithoutCommandIsQuiet : Prop :=
  (∀ (s : State) (p : PortsIn) (rest : List PortsIn),
    s.busy = false → s.host = p :: rest → p.rst = false → p.cmdValid = false →
    step s = .next { s with host := rest, rspValid := false }) ∧
  (∀ s : State, s.busy = false → s.host = [] → step s = .next { s with rspValid := false })

/-- 30_encoding.md R115: the illegal words are those the decoder rejects, and an illegal command completes with STATUS =
IllegalCommand and changes nothing else but the latches it was accepted into and the level of `rsp_valid`. -/
def Obligations.IllegalWordChangesOnlyStatus : Prop :=
  (∀ cmd : BitVec 32, IllegalWord cmd ↔ ∃ r, decode cmd = .error r) ∧
  ∀ (s : State) (p : PortsIn),
    p.rst = false → p.cmdValid = true → IllegalWord p.cmd →
    transact p s = .next
      { s with
        status := .illegalCommand
        cmdl := p.cmd
        keyl := wordsOfPort p.keyIn
        ivl := blockOfPort p.ivIn
        dinl := blockOfPort p.din
        busy := false
        rspValid := true }

/-- 10_state.md R53, 70_reset_and_hazards.md R350: the value of every state element after a reset edge, from any
state. -/
def Obligations.ResetEdgeGivesResetValues : Prop :=
  ∀ (p : PortsIn) (c : Clocked), p.rst = true →
    ∃ t : State, clockEdge p c = .next ⟨t, 0⟩ ∧ transact p c.core = .next t ∧
      sessionCode t.session = 0#2 ∧ t.config = 0x0000#16 ∧ statusCode t.status = 0x00#8 ∧ t.busy = false ∧
      (∀ (i : Nat) (h : i < 60), t.w[i] = 0x00000000#32) ∧ (∀ (i : Nat) (h : i < 10), t.rc[i] = 0x00#8) ∧
      (∀ (k : Nat) (h : k < 16), t.iv[k] = 0x00#8 ∧ t.prev[k] = 0x00#8 ∧ t.cap[k] = 0x00#8 ∧ t.dout[k] = 0x00#8) ∧
      t.first = false ∧ (∀ (r c : Nat) (hr : r < 4) (hc : c < 4), t.st[r][c] = 0x00#8) ∧
      t.seq = .ready ∧ t.rnd = 0#4 ∧ t.ki = 0#6 ∧ t.cmdl = 0#32 ∧
      (∀ (j : Nat) (h : j < 8), t.keyl[j] = 0#32) ∧
      (∀ (k : Nat) (h : k < 16), t.ivl[k] = 0x00#8 ∧ t.dinl[k] = 0x00#8)

/-- 70_reset_and_hazards.md R351, R352: no command is accepted at a reset edge, whatever the ports offer; `rsp_valid` is
0 after it; a second reset edge changes nothing more; and a reset while a command is executing leaves the same state
as a reset of an idle core, with no part of the command's effects. -/
def Obligations.ResetOverridesEverything : Prop :=
  (∀ (p q : PortsIn) (c : Clocked), p.rst = true → q.rst = true →
    ∃ t : State, clockEdge p c = .next ⟨t, 0⟩ ∧ t.busy = false ∧ t.rspValid = false ∧
      t.cmdl = 0#32 ∧ clockEdge q ⟨t, 0⟩ = .next ⟨t, 0⟩) ∧
  (∀ (p : PortsIn) (c d : Clocked), p.rst = true → c.core.busy = true → c.core.host = d.core.host →
    clockEdge p c = clockEdge p d ∧ clockEdge p c = .next ⟨{ State.reset with host := c.core.host }, 0⟩)

/-- 30_encoding.md R103, R104, R105: acceptance, the execution from the latches alone, and the one response. The level
of `rsp_valid` is kept as a field (log entry 2). -/
def Obligations.PortProtocol : Prop :=
  (∀ (p : PortsIn) (c : Clocked), p.rst = false → p.cmdValid = true → c.core.busy = false →
    clockEdge p c = .next
      ⟨{ c.core with
          cmdl := p.cmd
          keyl := wordsOfPort p.keyIn
          ivl := blockOfPort p.ivIn
          dinl := blockOfPort p.din
          busy := true
          rspValid := false }, 0⟩) ∧
  (∀ (p q : PortsIn) (c : Clocked), c.core.busy = true → p.rst = false → q.rst = false →
    clockEdge p c = clockEdge q c) ∧
  (∀ (p : PortsIn) (c c' : Clocked), clockEdge p c = .next c' → c'.core.rspValid = true →
    p.rst = false ∧ c.core.busy = true ∧ c'.core.busy = false ∧ executeLatched c.core = .next c'.core) ∧
  (∀ s : State, (outputsOf s).cmdReady = !s.busy ∧ (outputsOf s).rspStatus = statusCode s.status ∧
    (outputsOf s).rspState = sessionCode s.session ∧ (outputsOf s).rspValid = s.rspValid ∧
    blockOfPort (outputsOf s).dout = s.dout)

/-- 30_encoding.md R100, R103–R106, 00_scope.md R10: from an idle core, the edge that accepts a command and then as many
edges as its latency, with any port levels but a reset, give what the transaction gives; before the last of them the
core is the accepted state, with no response. The count of edges is the model's own (log entry 6). -/
def Obligations.ClockCarriesTransaction : Prop :=
  ∀ (c : Clocked) (p : PortsIn) (ps : List PortsIn),
    c.core.busy = false → p.rst = false → p.cmdValid = true →
    ps.length = latency (accept p c.core) → (∀ q ∈ ps, q.rst = false) →
    1 ≤ latency (accept p c.core) ∧
    clockRun (p :: ps) c = freshClock (transact p c.core) ∧
    ∀ k, k < latency (accept p c.core) → clockRun (p :: ps.take k) c = .next ⟨accept p c.core, k⟩

/-- 70_reset_and_hazards.md R370: a latency depends on no key, IV or data value. That it may depend on whether the
checks pass is log entry 6. -/
def Obligations.LatencyIgnoresKeyAndData : Prop :=
  ∀ s t : State, AgreeOnControl s t → latency s = latency t

/-! ### Invariants of the whole machine -/

/-- 10_state.md R48, R49, 70_reset_and_hazards.md R354: the invariant holds after reset, and there is no session. -/
def Obligations.ResetMeetsInvariant : Prop := Inv State.reset ∧ State.reset.session = .idle

/-- 10_state.md R34, R48, R49 (and R43 for SEQ, 60_exceptions.md R318 for CAP): every step keeps the invariant, whatever
the host drives. -/
def Obligations.StepKeepsInvariant : Prop :=
  ∀ s t : State, Inv s → step s = .next t → Inv t

/-- 93_implementation_defined.md ("every accepted command completes"): from a state that meets the invariant a step
always answers a next state, whatever the host drives. -/
def Obligations.StepNeverStops : Prop :=
  ∀ s : State, Inv s → ∃ t, step s = .next t

/-- 60_exceptions.md R310, R317: no step writes IllegalKeyCharacter or AllocationFailure; their codes are 0x02 and 0x05,
and no code is above 0x09. -/
def Obligations.StepKeepsOwnStatus : Prop :=
  (∀ s t : State, step s = .next t → OwnStatus s.status → OwnStatus t.status) ∧
  statusCode .illegalKeyCharacter = 0x02#8 ∧ statusCode .allocationFailure = 0x05#8 ∧
  (∀ e, (statusCode e).toNat ≤ 0x09) ∧ (∀ e f, statusCode e = statusCode f → e = f)

/-- 47_commands.md R281: the session state moves only as the table says. -/
def Obligations.SessionLifeCycle : Prop :=
  ∀ (s t : State) (p : PortsIn), p.rst = false → p.cmdValid = true → transact p s = .next t →
    SessionMove s.session (decode p.cmd) t.status t.session

/-- 10_state.md R42, 70_reset_and_hazards.md R362: a command changes DOUT only if it is a TRANSFORM of an open session
that ends with STATUS = OK. -/
def Obligations.DoutOnlyFromTransform : Prop :=
  ∀ (i : Instr) (s t : State), exec i s = .next t →
    t.dout = s.dout ∨
      (t.status = .ok ∧ s.session = .opened ∧ (i = .transformEnc 16#5 ∨ i = .transformDec 16#5))

/-! ### Release, errors and sessions -/

/-- 60_exceptions.md R318: Release, field by field, and where it runs. -/
def Obligations.ReleaseZeroesTheContext : Prop :=
  (∀ s : State, release s =
    { s with
      w := zeroWords
      rc := zeroConstants
      iv := zeroBlock
      prev := zeroBlock
      cap := zeroBlock
      first := false
      config := 0#16
      session := .idle }) ∧
  (∀ (i : Nat) (h : i < 60), zeroWords[i] = 0#32) ∧ (∀ (i : Nat) (h : i < 10), zeroConstants[i] = 0#8) ∧
  (∀ (k : Nat) (h : k < 16), zeroBlock[k] = 0#8) ∧
  (∀ (s : State) (c : Construction) (k : BitVec 6) (v : BitVec 5),
    exec (.createSession c k v) s = exec (.createSession c k v) (release s)) ∧
  (∀ s : State, s.session ≠ .idle → exec .closeSession s = .next { release s with status := .ok }) ∧
  (∀ s : State, raiseError .incompleteFinalBlock s =
    { release s with session := .failed, status := .incompleteFinalBlock })

/-- 60_exceptions.md R312, R313, R314: the errors of CREATE_SESSION. The context stays released, SESSION = IDLE, STATUS
takes the code, and nothing else changes. -/
def Obligations.CreateErrors : Prop :=
  (∀ (s : State) (c : Construction) (k : BitVec 6) (v : BitVec 5),
    k.toNat ≠ 16 → k.toNat ≠ 24 → k.toNat ≠ 32 →
    exec (.createSession c k v) s = .next { release s with session := .idle, status := .invalidKeyLength }) ∧
  (∀ (s : State) (k : BitVec 6) (v : BitVec 5), k.toNat = 16 ∨ k.toNat = 24 ∨ k.toNat = 32 →
    exec (.createSession .gcm k v) s =
      .next { release s with session := .idle, status := .unsupportedConstruction }) ∧
  (∀ (s : State) (k : BitVec 6) (v : BitVec 5), k.toNat = 16 ∨ k.toNat = 24 ∨ k.toNat = 32 → v.toNat ≠ 16 →
    exec (.createSession .cbc k v) s =
      .next { release s with session := .idle, status := .invalidIvLength })

/-- 47_commands.md R271, R274, 10_state.md R35–R39: a CREATE_SESSION whose checks pass completes from any state. CONFIG,
the round constants, the schedule of the key operand and the chaining context are those of the new session, CAP is
released, KI and SEQ are where the expansion leaves them, and everything else (DOUT, S, RND, the latches) is
unchanged. What is left in the hidden state is the model's choice (log entry 3). -/
def Obligations.CreateOpensSession : Prop :=
  ∀ (s : State) (c : Construction) (k : BitVec 6) (v : BitVec 5) (ks : KeySize),
    keySizeOfBytes k.toNat = some ks → (c = .ecb ∨ (c = .cbc ∧ v.toNat = 16)) →
    ∃ rc e, roundConstants (nrcOf ks) zeroConstants = .ok rc ∧ keyExpansion ks s.keyl rc zeroWords = .ok e ∧
      exec (.createSession c k v) s = .next
        { s with
          session := .opened
          config := packConfig ks (constructionBits c)
          status := .ok
          w := e.w
          rc := rc
          iv := if c = .cbc then s.ivl else zeroBlock
          prev := zeroBlock
          first := if c = .cbc then true else false
          cap := zeroBlock
          seq := .ready
          ki := e.ki }

/-- 30_encoding.md R112, 47_commands.md R273, R274, R280: KEYL words Nk..7, the IV operand in ECB and every operand of
CLOSE_SESSION are ignored. -/
def Obligations.UnusedOperandsIgnored : Prop :=
  (∀ (s t : State) (c : Construction) (k : BitVec 6) (v : BitVec 5) (ks : KeySize) (keyl : Vector Word 8),
    keySizeOfBytes k.toNat = some ks →
    (∀ (j : Nat) (h : j < 8), j < nkOf ks → keyl[j] = s.keyl[j]) →
    exec (.createSession c k v) s = .next t →
    exec (.createSession c k v) { s with keyl := keyl } = .next { t with keyl := keyl }) ∧
  (∀ (s t : State) (k : BitVec 6) (v v' : BitVec 5) (ivl : Block),
    exec (.createSession .ecb k v) s = .next t →
    exec (.createSession .ecb k v') { s with ivl := ivl } = .next { t with ivl := ivl }) ∧
  (∀ (s t : State) (keyl : Vector Word 8) (ivl dinl : Block),
    exec .closeSession s = .next t →
    exec .closeSession { s with keyl := keyl, ivl := ivl, dinl := dinl } =
      .next { t with keyl := keyl, ivl := ivl, dinl := dinl })

/-- 20_memory.md R80, 47_commands.md R275, R283: a CREATE_SESSION with the same operands leaves the same session
whatever came before, DOUT excepted, and ends the session that was there even when its checks fail. -/
def Obligations.CreateForgetsWhatCameBefore : Prop :=
  ∀ (s s' : State) (c : Construction) (k : BitVec 6) (v : BitVec 5), s.keyl = s'.keyl → s.ivl = s'.ivl →
    ∃ t t', exec (.createSession c k v) s = .next t ∧ exec (.createSession c k v) s' = .next t' ∧
      t.session = t'.session ∧ t.config = t'.config ∧ t.status = t'.status ∧ t.w = t'.w ∧ t.rc = t'.rc ∧
      t.iv = t'.iv ∧ t.prev = t'.prev ∧ t.first = t'.first ∧ t.cap = t'.cap ∧
      t.dout = s.dout ∧ t'.dout = s'.dout ∧
      (t.status ≠ .ok → t.session = .idle ∧ Released t) ∧ (t.status = .ok → t.session = .opened)

/-- 47_commands.md R280: CLOSE_SESSION is the word 0x00000003; it releases an OPEN or FAILED session and answers OK; in
IDLE it answers NoSession and changes nothing else; a second CLOSE_SESSION gives NoSession. DOUT is unchanged. -/
def Obligations.CloseReleases : Prop :=
  encode .closeSession = 0x00000003#32 ∧ decode 0x00000003#32 = .ok .closeSession ∧
  (∀ s : State, s.session = .opened ∨ s.session = .failed →
    exec .closeSession s = .next
      { s with
        session := .idle
        config := 0#16
        status := .ok
        w := zeroWords
        rc := zeroConstants
        iv := zeroBlock
        prev := zeroBlock
        cap := zeroBlock
        first := false }) ∧
  (∀ s : State, s.session = .idle → exec .closeSession s = .next { s with status := .noSession }) ∧
  (∀ s t : State, exec .closeSession s = .next t → exec .closeSession t = .next { t with status := .noSession })

/-- 60_exceptions.md R316: NoSession and SessionAborted. Nothing but STATUS changes. -/
def Obligations.TransformWithoutSession : Prop :=
  (∀ (s : State) (d : BitVec 5), d.toNat ≤ 16 → s.session = .idle →
    exec (.transformEnc d) s = .next { s with status := .noSession } ∧
      exec (.transformDec d) s = .next { s with status := .noSession }) ∧
  (∀ (s : State) (d : BitVec 5), d.toNat ≤ 16 → s.session = .failed →
    exec (.transformEnc d) s = .next { s with status := .sessionAborted } ∧
      exec (.transformDec d) s = .next { s with status := .sessionAborted }) ∧
  (∀ s : State, s.session = .idle → exec .closeSession s = .next { s with status := .noSession })

/-- 60_exceptions.md R315, 47_commands.md R278: a TRANSFORM of fewer than 16 bytes on an open session releases the
context, leaves the session FAILED, runs no round and keeps DOUT. -/
def Obligations.PartialBlockFailsSession : Prop :=
  ∀ (s : State) (d : BitVec 5), s.session = .opened → d.toNat < 16 →
    exec (.transformEnc d) s = .next
      { s with
        session := .failed
        config := 0#16
        status := .incompleteFinalBlock
        w := zeroWords
        rc := zeroConstants
        iv := zeroBlock
        prev := zeroBlock
        cap := zeroBlock
        first := false } ∧
    exec (.transformDec d) s = exec (.transformEnc d) s

/-- 60_exceptions.md R320: which error a command reports. Each command completes, for every operand; a TRANSFORM of 16
bytes on an open session needs a legal CONFIG.NR (45_round_pipeline.md R223). -/
def Obligations.ErrorPriority : Prop :=
  (∀ (s : State) (p : PortsIn) (r : Illegal), p.rst = false → p.cmdValid = true → decode p.cmd = .error r →
    ∃ t, transact p s = .next t ∧ t.status = .illegalCommand) ∧
  (∀ (s : State) (c : Construction) (k : BitVec 6) (v : BitVec 5),
    ∃ t, exec (.createSession c k v) s = .next t ∧
      t.status =
        (if k.toNat ≠ 16 ∧ k.toNat ≠ 24 ∧ k.toNat ≠ 32 then .invalidKeyLength
          else if c = .gcm then .unsupportedConstruction
          else if c = .cbc ∧ v.toNat ≠ 16 then .invalidIvLength
          else .ok)) ∧
  (∀ (s : State) (m : Mode) (d : BitVec 5), d.toNat ≤ 16 → (s.session = .opened → d.toNat = 16 → CanTransform s) →
    ∃ t, exec (match m with | .enc => .transformEnc d | .dec => .transformDec d) s = .next t ∧
      t.status =
        (if s.session = .idle then .noSession
          else if s.session = .failed then .sessionAborted
          else if d.toNat < 16 then .incompleteFinalBlock
          else .ok)) ∧
  (∀ s : State, ∃ t, exec .closeSession s = .next t ∧ t.status = if s.session = .idle then .noSession else .ok)

/-- 60_exceptions.md R320 (its example), 30_encoding.md R113: a TRANSFORM of more than 16 bytes has no word the decoder
accepts, and the model's meaning of it as an instruction is IllegalCommand in every state, with nothing else changed
(the model's reading, log entry 5). -/
def Obligations.OverlongTransformIsIllegal : Prop :=
  ∀ (s : State) (d : BitVec 5), 16 < d.toNat →
    exec (.transformEnc d) s = .next { s with status := .illegalCommand } ∧
      exec (.transformDec d) s = .next { s with status := .illegalCommand } ∧
      decode (encode (.transformEnc d)) = .error .dataTooLong ∧
      decode (encode (.transformDec d)) = .error .dataTooLong

/-! ### TRANSFORM -/

/-- 47_commands.md R276, 46_chaining.md R255: in ECB a TRANSFORM.ENC of 16 bytes completes with DOUT = Cipher(DINL). It
writes DOUT, STATUS and the hidden S, RND and SEQ; everything else is unchanged, IV, PREV, FIRST and CAP among it.
What is left in the hidden state is the model's choice (log entry 3). -/
def Obligations.EcbEncryptCompletes : Prop :=
  ∀ s : State, CanTransform s → configCons s.config = 0#2 →
    ∃ y, cipher s.w (configNr s.config).toNat s.dinl = .ok y ∧
      exec (.transformEnc 16#5) s = .next
        { s with dout := y, status := .ok, seq := .ready, rnd := configNr s.config, st := loadState y }

/-- 47_commands.md R277, 46_chaining.md R255: in ECB a TRANSFORM.DEC of 16 bytes completes with DOUT = InvCipher(DINL),
and changes nothing else but STATUS and the hidden S, RND and SEQ. What is left in the hidden state is the model's
choice (log entry 3). -/
def Obligations.EcbDecryptCompletes : Prop :=
  ∀ s : State, CanTransform s → configCons s.config = 0#2 →
    ∃ y, invCipher s.w (configNr s.config).toNat s.dinl = .ok y ∧
      exec (.transformDec 16#5) s = .next
        { s with dout := y, status := .ok, seq := .ready, rnd := 0#4, st := loadState y }

/-- 46_chaining.md R251, R252, R256, 47_commands.md R276: in CBC a TRANSFORM.ENC of 16 bytes completes with the cipher
of the block XOR the chaining value F (IV on the first block, PREV after it); DOUT and PREV take the output, FIRST
is cleared, and nothing else changes but STATUS and the hidden S, RND and SEQ. What is left in the hidden state is
the model's choice (log entry 3). -/
def Obligations.CbcEncryptCompletes : Prop :=
  ∀ (s : State) (f : Block), CanTransform s → configCons s.config = 1#2 →
    (s.first = true → f = s.iv) → (s.first = false → f = s.prev) →
    ∃ x y, (∀ (k : Nat) (h : k < 16), x[k] = s.dinl[k] ^^^ f[k]) ∧
      cipher s.w (configNr s.config).toNat x = .ok y ∧
      exec (.transformEnc 16#5) s = .next
        { s with
          dout := y
          prev := y
          first := false
          status := .ok
          seq := .ready
          rnd := configNr s.config
          st := loadState y }

/-- 46_chaining.md R251, R253, R254, R256, 47_commands.md R277: in CBC a TRANSFORM.DEC of 16 bytes completes with
InvCipher of the block XOR the chaining value F; CAP and PREV take the incoming block, never a value computed from
S; FIRST is cleared, and nothing else changes but DOUT, STATUS and the hidden S, RND and SEQ. What is left in the
hidden state is the model's choice (log entry 3). -/
def Obligations.CbcDecryptCompletes : Prop :=
  ∀ (s : State) (f : Block), CanTransform s → configCons s.config = 1#2 →
    (s.first = true → f = s.iv) → (s.first = false → f = s.prev) →
    ∃ y out, invCipher s.w (configNr s.config).toNat s.dinl = .ok y ∧
      (∀ (k : Nat) (h : k < 16), out[k] = y[k] ^^^ f[k]) ∧
      exec (.transformDec 16#5) s = .next
        { s with
          dout := out
          cap := s.dinl
          prev := s.dinl
          first := false
          status := .ok
          seq := .ready
          rnd := 0#4
          st := loadState y }

/-- 47_commands.md R279, 43_key_schedule.md R179, 46_chaining.md R252–R255: what no TRANSFORM changes. It leaves the
operand latches, BUSY, KI and the response level; unless it fails the session it leaves the key schedule, the
constants, CONFIG, IV and SESSION; with an error it leaves DOUT; in ECB it leaves PREV, FIRST and CAP, and an
encryption leaves CAP. What is left in the hidden state is the model's choice (log entry 3). -/
def Obligations.TransformFrame : Prop :=
  ∀ (s t : State) (m : Mode) (d : BitVec 5),
    exec (match m with | .enc => .transformEnc d | .dec => .transformDec d) s = .next t →
    t.cmdl = s.cmdl ∧ t.keyl = s.keyl ∧ t.ivl = s.ivl ∧ t.dinl = s.dinl ∧ t.busy = s.busy ∧ t.ki = s.ki ∧
      t.rspValid = s.rspValid ∧ t.host = s.host ∧
      (t.status ≠ .incompleteFinalBlock →
        t.session = s.session ∧ t.config = s.config ∧ t.w = s.w ∧ t.rc = s.rc ∧ t.iv = s.iv) ∧
      (t.status ≠ .ok → t.dout = s.dout ∧ t.st = s.st ∧ t.rnd = s.rnd ∧ t.seq = s.seq) ∧
      (t.status ≠ .ok → t.status ≠ .incompleteFinalBlock → t.prev = s.prev ∧ t.first = s.first ∧ t.cap = s.cap) ∧
      (t.status = .ok → configCons s.config = 0#2 → t.prev = s.prev ∧ t.first = s.first ∧ t.cap = s.cap) ∧
      (t.status = .ok → m = .enc → t.cap = s.cap)

/-- 45_round_pipeline.md R223, 20_memory.md R75, 41_round_constants.md R143: what the model stops on. A TRANSFORM of an
open session whose CONFIG.NR is not 10, 12 or 14 is refused, as is the pipeline without an open session and a
round-constant table of another length; a round key outside the word file faults. No state that meets `Inv` leads
here. The names of the stops are the model's (log entry 7). -/
def Obligations.OutOfContractStops : Prop :=
  (∀ s : State, s.session = .opened →
    configNr s.config ≠ 10#4 → configNr s.config ≠ 12#4 → configNr s.config ≠ 14#4 →
    exec (.transformEnc 16#5) s = .refused (.roundCount (configNr s.config).toNat) ∧
      exec (.transformDec 16#5) s = .refused (.roundCount (configNr s.config).toNat)) ∧
  (∀ (m : Mode) (blk : Block) (s : State), s.session ≠ .opened →
    outcomeOf (runPipeline m blk s) = .refused .pipelineWithoutSession) ∧
  (∀ (n : Nat) (rc : Vector Byte 10), n ≠ 7 → n ≠ 8 → n ≠ 10 →
    outcomeOf (roundConstants n rc) = .refused (.constantCount n)) ∧
  (∀ (w : Vector Word 60) (r : Nat) (st : CState), 15 ≤ r →
    outcomeOf (addRoundKey w r st) = .fault (.storageIndex .w (4 * r)))

/-! ### Round constants and key schedule -/

/-- 41_round_constants.md R142: the three tables; each shorter one is a prefix of the longer. Entries above the length
stay 0 (10_state.md R36). -/
def Obligations.RoundConstantTables : Prop :=
  roundConstants 10 zeroConstants =
    .ok #v[0x01#8, 0x02#8, 0x04#8, 0x08#8, 0x10#8, 0x20#8, 0x40#8, 0x80#8, 0x1B#8, 0x36#8] ∧
  roundConstants 8 zeroConstants =
    .ok #v[0x01#8, 0x02#8, 0x04#8, 0x08#8, 0x10#8, 0x20#8, 0x40#8, 0x80#8, 0x00#8, 0x00#8] ∧
  roundConstants 7 zeroConstants =
    .ok #v[0x01#8, 0x02#8, 0x04#8, 0x08#8, 0x10#8, 0x20#8, 0x40#8, 0x00#8, 0x00#8, 0x00#8]

/-- 41_round_constants.md R141: each step of the recurrence is multiplication by {02}, so entry i of the table is
{02}^i, `xtime` applied i times to 0x01, for every legal length; the entries above it are kept. -/
def Obligations.RoundConstantsArePowersOfTwo : Prop :=
  (∀ t : Byte, rconNext t = xtime t ∧ rconNext t = gmul 0x02#8 t) ∧
  ∀ (n : Nat) (rc : Vector Byte 10), n = 7 ∨ n = 8 ∨ n = 10 →
    ∃ rc', roundConstants n rc = .ok rc' ∧
      ∀ (i : Nat) (h : i < 10), rc'[i] = if i < n then xtime^[i] 0x01#8 else rc[i]

/-- 43_key_schedule.md R171–R173, R175, R176, 10_state.md R35: the schedule exists for every key size, key and
constants; its first Nk words are the key words; each later word follows the case its index selects; the words above
the schedule stay 0; the constant's index stays below Nrc. -/
def Obligations.KeyExpansionRecurrence : Prop :=
  ∀ (ks : KeySize) (key : Vector Word 8) (rc : Vector Byte 10),
    ∃ e, keyExpansion ks key rc zeroWords = .ok e ∧
      (∀ (i : Nat) (h : i < 8), i < nkOf ks → e.w[i] = key[i]) ∧
      (∀ (i : Nat) (h : i < 60), scheduleLen ks ≤ i → e.w[i] = 0#32) ∧
      (∀ (i : Nat) (h : i < 60), nkOf ks ≤ i → i < scheduleLen ks →
        i / nkOf ks - 1 < nrcOf ks ∧
        e.w[i] =
          (if nkOf ks = 8 ∧ i % 8 = 4 then subWord e.w[i - 1] ^^^ e.w[i - nkOf ks]
            else if i % nkOf ks = 0 then
              (subWord (rotWord e.w[i - 1]) ^^^ word (rc.toList.getD (i / nkOf ks - 1) 0#8) 0#8 0#8 0#8) ^^^
                e.w[i - nkOf ks]
            else e.w[i - 1] ^^^ e.w[i - nkOf ks]))

/-- 95_test_vectors.md L1.3, L2.8, L2.9, L2.10: the known-answer vector, at the three key sizes, both ways. -/
def Obligations.KnownAnswerVectors : Prop :=
  ∀ v ∈ [(KeySize.k128, 0x000102030405060708090a0b0c0d0e0f00000000000000000000000000000000#256,
            0x69c4e0d86a7b0430d8cdb78070b4c55a#128),
         (KeySize.k192, 0x000102030405060708090a0b0c0d0e0f10111213141516170000000000000000#256,
            0xdda97ca4864cdfe06eaf70a0ec0d7191#128),
         (KeySize.k256, 0x000102030405060708090a0b0c0d0e0f101112131415161718191a1b1c1d1e1f#256,
            0x8ea2b7ca516745bfeafc49904b496089#128)],
    ∃ rc e, roundConstants (nrcOf v.1) zeroConstants = .ok rc ∧
      keyExpansion v.1 (wordsOfPort v.2.1) rc zeroWords = .ok e ∧
      cipher e.w (nrOf v.1) (blockOfPort 0x00112233445566778899aabbccddeeff#128) = .ok (blockOfPort v.2.2) ∧
      invCipher e.w (nrOf v.1) (blockOfPort v.2.2) = .ok (blockOfPort 0x00112233445566778899aabbccddeeff#128)

/-! ### Substitution, field arithmetic and diffusion -/

/-- 42_substitution.md R157: the two tables are inverse permutations, so InvSubBytes undoes SubBytes and the reverse. -/
def Obligations.SubstitutionTablesInverse : Prop :=
  (∀ b : Byte, invSboxEntry (sboxEntry b) = b ∧ sboxEntry (invSboxEntry b) = b) ∧
  (∀ s : CState, invSubBytes (subBytes s) = s ∧ subBytes (invSubBytes s) = s)

/-- 42_substitution.md R158: SBox[x] = A(inv(x)), where inv(0) = 0 and inv(x) is the y with x · y = {01}; there is
exactly one such y for x ≠ 0; and InvSBox is the inverse permutation. -/
def Obligations.SBoxIsAlgebraic : Prop :=
  sboxEntry 0x00#8 = sboxAffine 0x00#8 ∧
  (∀ x y : Byte, gmul x y = 0x01#8 → sboxEntry x = sboxAffine y) ∧
  (∀ x : Byte, x ≠ 0x00#8 → ∃ y, gmul x y = 0x01#8 ∧ ∀ z, gmul x z = 0x01#8 → z = y) ∧
  (∀ x y : Byte, sboxEntry x = y ↔ invSboxEntry y = x)

/-- 44_diffusion.md R191: the shift-and-add product is the full 15-bit carry-less product reduced modulo 0x11B. -/
def Obligations.GmulIsReducedCarrylessProduct : Prop :=
  ∀ a b : Byte, gmul a b = reduce11B (clmul a b)

/-- 44_diffusion.md R192: multiplication is commutative, associative and distributes over XOR, with {01} as identity and
0 as absorbing element. -/
def Obligations.FieldLaws : Prop :=
  (∀ a b : Byte, gmul a b = gmul b a) ∧
  (∀ a b c : Byte, gmul (gmul a b) c = gmul a (gmul b c)) ∧
  (∀ a b c : Byte, gmul a (b ^^^ c) = gmul a b ^^^ gmul a c) ∧
  (∀ a : Byte, gmul 0x01#8 a = a ∧ gmul 0x00#8 a = 0x00#8)

/-- 44_diffusion.md R193: the constants of MixColumns and InvMixColumns by xtime. -/
def Obligations.XtimeConstants : Prop :=
  ∀ a : Byte,
    gmul 0x02#8 a = xtime a ∧
    gmul 0x03#8 a = xtime a ^^^ a ∧
    gmul 0x09#8 a = xtime (xtime (xtime a)) ^^^ a ∧
    gmul 0x0B#8 a = xtime (xtime (xtime a)) ^^^ xtime a ^^^ a ∧
    gmul 0x0D#8 a = xtime (xtime (xtime a)) ^^^ xtime (xtime a) ^^^ a ∧
    gmul 0x0E#8 a = xtime (xtime (xtime a)) ^^^ xtime (xtime a) ^^^ xtime a

/-- 44_diffusion.md R194, R195: row r rotated left, or right, by r; row 0 untouched; and the worked examples. -/
def Obligations.RowRotations : Prop :=
  (∀ (s : CState) (r c : Fin 4),
    (shiftRows s)[r.val][c.val] = s[r.val][(c.val + r.val) % 4]'(Nat.mod_lt _ (by decide)) ∧
      (invShiftRows s)[r.val][(c.val + r.val) % 4]'(Nat.mod_lt _ (by decide)) = s[r.val][c.val] ∧
      (shiftRows s)[0] = s[0] ∧ (invShiftRows s)[0] = s[0]) ∧
  storeState (shiftRows (loadState (blockOfPort 0x000102030405060708090a0b0c0d0e0f#128))) =
    blockOfPort 0x00050a0f04090e03080d02070c01060b#128 ∧
  storeState (invShiftRows (loadState (blockOfPort 0x000102030405060708090a0b0c0d0e0f#128))) =
    blockOfPort 0x000d0a0704010e0b0805020f0c090603#128 ∧
  storeState (invShiftRows (loadState (blockOfPort 0x00050a0f04090e03080d02070c01060b#128))) =
    blockOfPort 0x000102030405060708090a0b0c0d0e0f#128

/-- 44_diffusion.md R196, R197, with R193: the bytes of a mixed column, and of an unmixed one, from the four old bytes;
a column of four equal bytes is unchanged, both ways; and the worked examples. -/
def Obligations.ColumnMixing : Prop :=
  (∀ (s : CState) (c : Nat) (h : c < 4),
    (mixColumns s)[0][c] = xtime s[0][c] ^^^ (xtime s[1][c] ^^^ s[1][c]) ^^^ s[2][c] ^^^ s[3][c] ∧
    (mixColumns s)[1][c] = s[0][c] ^^^ xtime s[1][c] ^^^ (xtime s[2][c] ^^^ s[2][c]) ^^^ s[3][c] ∧
    (mixColumns s)[2][c] = s[0][c] ^^^ s[1][c] ^^^ xtime s[2][c] ^^^ (xtime s[3][c] ^^^ s[3][c]) ∧
    (mixColumns s)[3][c] = (xtime s[0][c] ^^^ s[0][c]) ^^^ s[1][c] ^^^ s[2][c] ^^^ xtime s[3][c]) ∧
  (∀ (s : CState) (c : Nat) (h : c < 4),
    (invMixColumns s)[0][c] =
      gmul 0x0E#8 s[0][c] ^^^ gmul 0x0B#8 s[1][c] ^^^ gmul 0x0D#8 s[2][c] ^^^ gmul 0x09#8 s[3][c] ∧
    (invMixColumns s)[1][c] =
      gmul 0x09#8 s[0][c] ^^^ gmul 0x0E#8 s[1][c] ^^^ gmul 0x0B#8 s[2][c] ^^^ gmul 0x0D#8 s[3][c] ∧
    (invMixColumns s)[2][c] =
      gmul 0x0D#8 s[0][c] ^^^ gmul 0x09#8 s[1][c] ^^^ gmul 0x0E#8 s[2][c] ^^^ gmul 0x0B#8 s[3][c] ∧
    (invMixColumns s)[3][c] =
      gmul 0x0B#8 s[0][c] ^^^ gmul 0x0D#8 s[1][c] ^^^ gmul 0x09#8 s[2][c] ^^^ gmul 0x0E#8 s[3][c]) ∧
  (∀ (s : CState) (c : Nat) (h : c < 4), s[0][c] = s[1][c] → s[1][c] = s[2][c] → s[2][c] = s[3][c] →
    ∀ (r : Nat) (hr : r < 4), (mixColumns s)[r][c] = s[r][c] ∧ (invMixColumns s)[r][c] = s[r][c]) ∧
  storeState (mixColumns (loadState (blockOfPort 0xdb1353456353e08c0000000000000000#128))) =
    blockOfPort 0x8e4da1bc5f7264150000000000000000#128 ∧
  storeState (invMixColumns (loadState (blockOfPort 0x8e4da1bc000000000000000000000000#128))) =
    blockOfPort 0xdb135345000000000000000000000000#128

/-- 44_diffusion.md R198: the inverse operations undo the forward ones, both ways, for every state; the product MI × M
is the identity matrix. -/
def Obligations.DiffusionUndone : Prop :=
  (∀ s : CState, invShiftRows (shiftRows s) = s ∧ shiftRows (invShiftRows s) = s) ∧
  (∀ s : CState, invMixColumns (mixColumns s) = s ∧ mixColumns (invMixColumns s) = s) ∧
  mixBy invMixMatrix mixMatrix = matrix (fun r c => if r = c then 0x01#8 else 0x00#8)

/-- 44_diffusion.md R200, R201, 10_state.md R40: two transposes are the identity; the transpose of a block, read as the
flat buffer, is the state the block is loaded into; and a loaded block is stored back unchanged. -/
def Obligations.TransposeIsTheLayout : Prop :=
  (∀ b : Block, transpose (transpose b) = b) ∧
  (∀ (b : Block) (i j : Nat) (hi : i < 4) (hj : j < 4), (transpose b)[4 * i + j] = b[4 * j + i]) ∧
  (∀ b : Block, stateOfFlat (transpose b) = loadState b) ∧
  (∀ b : Block, storeState (loadState b) = b) ∧
  (∀ (b : Block) (r c : Nat) (hr : r < 4) (hc : c < 4), (loadState b)[r][c] = b[r + 4 * c]) ∧
  transpose (blockOfPort 0x000102030405060708090a0b0c0d0e0f#128) =
    blockOfPort 0x0004080c0105090d02060a0e03070b0f#128

/-- 20_memory.md R71, R72, R74, 00_scope.md R12: bytes, words and ports. A port and its block determine each other; the
key words of the key port are the big-endian words of its bytes; and a word is its four bytes. -/
def Obligations.PortPackingRoundTrip : Prop :=
  (∀ p : BitVec 128, portOfBlock (blockOfPort p) = p) ∧
  (∀ b : Block, blockOfPort (portOfBlock b) = b) ∧
  (∀ (p : BitVec 256) (j : Fin 8) (n : Fin 4),
    wordByte (wordsOfPort p)[j.val] n = p.extractLsb' (248 - 8 * (4 * j.val + n.val)) 8) ∧
  (∀ w : Word, word (wordByte w 0) (wordByte w 1) (wordByte w 2) (wordByte w 3) = w) ∧
  (∀ a b c d : Byte, (word a b c d).toNat = a.toNat * 2 ^ 24 + b.toNat * 2 ^ 16 + c.toNat * 2 ^ 8 + d.toNat)

/-! ### The pipeline -/

/-- 45_round_pipeline.md R221: AddRoundKey(r), for every round key in the word file: word 4r + c into column c, its most
significant byte into the top row; applied twice it is the identity; an all-zero round key changes nothing; and the
worked example. -/
def Obligations.AddRoundKeyRule : Prop :=
  (∀ (w : Vector Word 60) (r : Nat) (s : CState) (hr : r ≤ 14),
    ∃ t, addRoundKey w r s = .ok t ∧
      (∀ (c : Nat) (hc : c < 4),
        t[0][c] = s[0][c] ^^^ w[4 * r + c].extractLsb' 24 8 ∧
        t[1][c] = s[1][c] ^^^ w[4 * r + c].extractLsb' 16 8 ∧
        t[2][c] = s[2][c] ^^^ w[4 * r + c].extractLsb' 8 8 ∧
        t[3][c] = s[3][c] ^^^ w[4 * r + c].extractLsb' 0 8) ∧
      addRoundKey w r t = .ok s ∧
      ((∀ (c : Nat) (hc : c < 4), w[4 * r + c] = 0#32) → t = s)) ∧
  addWords #v[0x00010203#32, 0x04050607#32, 0x08090a0b#32, 0x0c0d0e0f#32]
      (loadState (blockOfPort 0x00112233445566778899aabbccddeeff#128)) =
    loadState (blockOfPort 0x00102030405060708090a0b0c0d0e0f0#128)

/-- 45_round_pipeline.md R229: InvCipher undoes Cipher and the reverse, for every word file and every block, at the
three round counts; both complete. -/
def Obligations.CipherUndone : Prop :=
  ∀ (w : Vector Word 60) (ks : KeySize) (x : Block),
    (∃ y, cipher w (nrOf ks) x = .ok y ∧ invCipher w (nrOf ks) y = .ok x) ∧
    (∃ y, invCipher w (nrOf ks) x = .ok y ∧ cipher w (nrOf ks) y = .ok x)

/-- 45_round_pipeline.md R224, R226, R230, R231: the sequencer, started on a block, runs to DONE and leaves in S the
block that Cipher, or InvCipher, computes, with RND at its last index. -/
def Obligations.SequencerRunsCipher : Prop :=
  ∀ (w : Vector Word 60) (nr : BitVec 4) (blk : Block), nr = 10#4 ∨ nr = 12#4 ∨ nr = 14#4 →
    (∃ p, runRounds .enc w nr blk = .ok p ∧ p.seq = .done ∧ p.rnd = nr ∧
      cipher w nr.toNat blk = .ok (storeState p.st)) ∧
    (∃ p, runRounds .dec w nr blk = .ok p ∧ p.seq = .done ∧ p.rnd = 0#4 ∧
      invCipher w nr.toNat blk = .ok (storeState p.st))

/-! ### Chaining, and what may depend on what -/

/-- 46_chaining.md R258: a CBC message encrypted block by block after a CREATE_SESSION, then decrypted block by block
after a new one with the same key and IV, comes back; every command of both streams succeeds. -/
def Obligations.CbcStreamRoundTrip : Prop :=
  ∀ (s s' : State) (k : BitVec 6) (ks : KeySize) (message : List Block),
    keySizeOfBytes k.toNat = some ks → s.keyl = s'.keyl → s.ivl = s'.ivl →
    ∃ t t' sent, exec (.createSession .cbc k 16#5) s = .next t ∧ exec (.createSession .cbc k 16#5) s' = .next t' ∧
      transformStream .enc message t = some sent ∧ sent.length = message.length ∧
      transformStream .dec sent t' = some message

/-- 46_chaining.md R261: FIRST behaves as PREV preloaded with IV: on a CBC block both give the same state. -/
def Obligations.FirstFlagIsPreloadedPrev : Prop :=
  ∀ (s : State) (m : Mode), CanTransform s → configCons s.config = 1#2 → s.first = true →
    ∃ t, exec (match m with | .enc => .transformEnc 16#5 | .dec => .transformDec 16#5) s = .next t ∧
      exec (match m with | .enc => .transformEnc 16#5 | .dec => .transformDec 16#5)
        { s with first := false, prev := s.iv } = .next t

/-- 10_state.md R50: the hidden state between commands (S, CAP, SEQ, RND, KI, the latches) is not read: two cores that
agree on everything else still do after any transaction, and stop alike. -/
def Obligations.HiddenStateIsNotRead : Prop :=
  ∀ (p : PortsIn) (s s' : State), AgreeButHidden s s' →
    (∀ t, transact p s = .next t → ∃ t', transact p s' = .next t' ∧ AgreeButHidden t t') ∧
    (∀ f, transact p s = .fault f → transact p s' = .fault f) ∧
    (∀ r, transact p s = .refused r → transact p s' = .refused r)

/-- 10_state.md R51, 60_exceptions.md R330: what the host sees of any command but a TRANSFORM does not depend on the
key, the IV or the data given with it, nor on the schedule, IV and PREV the core holds; and of a TRANSFORM only
`dout` does. -/
def Obligations.KeyIsNotOutput : Prop :=
  ∀ (p p' : PortsIn) (s s' t t' : State),
    p.rst = false → p'.rst = false → p.cmdValid = true → p'.cmdValid = true → p.cmd = p'.cmd →
    s.session = s'.session → s.dout = s'.dout →
    transact p s = .next t → transact p' s' = .next t' →
    { outputsOf t with dout := 0#128 } = { outputsOf t' with dout := 0#128 } ∧
      (opField p.cmd ≠ 2#4 → outputsOf t = outputsOf t')

/-- 20_memory.md R86, 45_round_pipeline.md R220, 46_chaining.md R255, R257: the output of an ECB TRANSFORM depends only
on its data operand, its direction, W and CONFIG. -/
def Obligations.EcbBlockIndependent : Prop :=
  ∀ (s s' : State) (m : Mode), CanTransform s → s'.session = .opened → configCons s.config = 0#2 →
    s.config = s'.config → s.w = s'.w → s.dinl = s'.dinl →
    ∃ t t', exec (match m with | .enc => .transformEnc 16#5 | .dec => .transformDec 16#5) s = .next t ∧
      exec (match m with | .enc => .transformEnc 16#5 | .dec => .transformDec 16#5) s' = .next t' ∧
      t.dout = t'.dout

/-! ### The assembler -/

/-- 30_encoding.md R120: hex text fills a port of m bytes from its most significant byte: byte n of the text is at bits
[8m-1-8n : 8m-8-8n], and the bytes not written are 0. -/
def Obligations.AssemblerFillsPorts : Prop :=
  ∀ (m : Nat) (bs : List Byte), bs.length ≤ m →
    ∀ n, n < m → (fillPort (8 * m) bs).extractLsb' (8 * (m - 1 - n)) 8 = bs.getD n 0x00#8
end

