-- ==== Sys2Proof/Laws/Bytes.lean ====
section
/-! SUPPORT. What the vector builders hold at each index, and that a block or a state is determined by its bytes. -/

namespace Sys2Proof.Machine

@[simp] theorem vec4_getElem {α : Type} (f : Fin 4 → α) (i : Nat) (h : i < 4) : (vec4 f)[i] = f ⟨i, h⟩ := by
  match i, h with
  | 0, _ | 1, _ | 2, _ | 3, _ => rfl

@[simp] theorem vec8_getElem {α : Type} (f : Fin 8 → α) (i : Nat) (h : i < 8) : (vec8 f)[i] = f ⟨i, h⟩ := by
  match i, h with
  | 0, _ | 1, _ | 2, _ | 3, _ | 4, _ | 5, _ | 6, _ | 7, _ => rfl

@[simp] theorem vec16_getElem {α : Type} (f : Fin 16 → α) (i : Nat) (h : i < 16) :
    (vec16 f)[i] = f ⟨i, h⟩ := by
  interval_cases i <;> rfl

@[simp] theorem matrix_getElem (f : Fin 4 → Fin 4 → Byte) (r c : Nat) (hr : r < 4) (hc : c < 4) :
    ((matrix f)[r])[c] = f ⟨r, hr⟩ ⟨c, hc⟩ := by
  simp [matrix]

/-- Two cipher states with the same byte at every row and column are equal. -/
theorem cstate_ext {s t : CState} (h : ∀ (r c : Fin 4), s[r.val][c.val] = t[r.val][c.val]) : s = t := by
  apply Vector.ext
  intro r hr
  apply Vector.ext
  intro c hc
  exact h ⟨r, hr⟩ ⟨c, hc⟩

/-- Two blocks with the same bytes are equal. -/
theorem block_ext {a b : Block} (h : ∀ k : Fin 16, a[k.val] = b[k.val]) : a = b :=
  Vector.ext fun k hk => h ⟨k, hk⟩

@[simp] theorem zeroBlock_getElem (i : Nat) (h : i < 16) : zeroBlock[i] = 0#8 := by
  simp [zeroBlock]

@[simp] theorem xorBlock_getElem (a b : Block) (i : Nat) (h : i < 16) :
    (xorBlock a b)[i] = a[i] ^^^ b[i] := by
  simp [xorBlock]

/-- A second exclusive-or with the same block undoes the first. -/
theorem xorBlock_cancel (a b : Block) : xorBlock (xorBlock a b) b = a := by
  apply block_ext
  intro k
  simp

@[simp] theorem loadState_getElem (b : Block) (r c : Nat) (hr : r < 4) (hc : c < 4) :
    ((loadState b)[r])[c] = b[r + 4 * c] := by
  simp [loadState]

@[simp] theorem storeState_getElem (s : CState) (k : Nat) (h : k < 16) :
    (storeState s)[k] = s[k % 4][k / 4] := by
  simp [storeState]

/-- Out of the state and in again gives the state back (10_state.md R40). -/
theorem loadState_storeState (s : CState) : loadState (storeState s) = s := by
  apply cstate_ext
  intro r c
  have h1 : (r.val + 4 * c.val) % 4 = r.val := by omega
  have h2 : (r.val + 4 * c.val) / 4 = c.val := by omega
  simp [h1, h2]

end Sys2Proof.Machine
end

