-- ==== Sys2Proof/Laws/Ops.lean ====
section
/-! SUPPORT. The storage operations: one lemma for what each can answer (20_memory.md R75). -/

namespace Sys2Proof.Machine

variable {α : Type} {n : Nat}

/-- Inside the space, a read gives the element. -/
theorem readElem_inside (sp : Space) (v : Vector α n) (i : Nat) (h : i < n) : readElem sp v i = .ok v[i] := by
  simp [readElem, h]

/-- Outside the space, a read faults. -/
theorem readElem_outside (sp : Space) (v : Vector α n) (i : Nat) (h : n ≤ i) :
    readElem sp v i = .error (.fault (.storageIndex sp i)) := by
  simp [readElem, Nat.not_lt.mpr h]

/-- All a read can answer. -/
theorem readElem_eq_ok {sp : Space} {v : Vector α n} {i : Nat} {x : α} (hr : readElem sp v i = .ok x) :
    ∃ h : i < n, x = v[i] := by
  unfold readElem at hr
  split at hr
  · next h => exact ⟨h, (Except.ok.inj hr).symm⟩
  · cases hr

/-- Inside the space, a write sets the element. -/
theorem writeElem_inside (sp : Space) (v : Vector α n) (i : Nat) (x : α) (h : i < n) :
    writeElem sp v i x = .ok (v.set i x h) := by
  simp [writeElem, h]

/-- Outside the space, a write faults. -/
theorem writeElem_outside (sp : Space) (v : Vector α n) (i : Nat) (x : α) (h : n ≤ i) :
    writeElem sp v i x = .error (.fault (.storageIndex sp i)) := by
  simp [writeElem, Nat.not_lt.mpr h]

/-- All a write can answer: the element written, every other one kept. -/
theorem writeElem_eq_ok {sp : Space} {v v' : Vector α n} {i : Nat} {x : α} (hw : writeElem sp v i x = .ok v') :
    ∃ h : i < n, v'[i] = x ∧ ∀ j (hj : j < n), j ≠ i → v'[j] = v[j] := by
  unfold writeElem at hw
  split at hw
  · next h =>
    cases Except.ok.inj hw
    exact ⟨h, by simp, fun j hj hne => by rw [Vector.getElem_set_ne _ _ (Ne.symm hne)]⟩
  · cases hw

/-- A step answers a next state only from an attempt that succeeds. -/
theorem outcomeOf_eq_next {a : Attempt α} {x : α} : outcomeOf a = .next x ↔ a = .ok x := by
  match a with
  | .ok y => simp [outcomeOf]
  | .error (.fault f) => simp [outcomeOf]
  | .error (.refused r) => simp [outcomeOf]

@[simp] theorem outcomeOf_ok (x : α) : outcomeOf (.ok x : Attempt α) = .next x := rfl

/-- Sequencing two attempts succeeds only when both do. -/
theorem bind_eq_ok {β : Type} {a : Attempt α} {f : α → Attempt β} {y : β} (h : (a >>= f) = .ok y) :
    ∃ x, a = .ok x ∧ f x = .ok y := by
  match a, h with
  | .ok x, h => exact ⟨x, rfl, h⟩
  | .error e, h => cases h

@[simp] theorem ok_bind {β : Type} (x : α) (f : α → Attempt β) : ((.ok x : Attempt α) >>= f) = f x := rfl

end Sys2Proof.Machine
end

