-- ==== Sys2Proof/Laws/KeySchedule.lean ====
section
/-! SUPPORT. The round constants and the key expansion complete for every key size, and every index they form is in
its space (41_round_constants.md R143; 43_key_schedule.md R171, R178). -/

namespace Sys2Proof.Machine

theorem nkOf_cases (ks : KeySize) : nkOf ks = 4 ∨ nkOf ks = 6 ∨ nkOf ks = 8 := by cases ks <;> simp [nkOf]

theorem nrcOf_legal (ks : KeySize) : nrcOf ks = 7 ∨ nrcOf ks = 8 ∨ nrcOf ks = 10 := by
  cases ks <;> simp [nrcOf, nkOf]

/-- The largest schedule fills the word file (00_scope.md R8). -/
theorem scheduleLen_le (ks : KeySize) : scheduleLen ks ≤ 60 := by cases ks <;> simp [scheduleLen, nrOf, nkOf]

/-- The constants' loop completes while its entries stay in the table. -/
theorem rconLoop_completes : ∀ (count i : Nat) (t : Byte) (rc : Vector Byte 10), i + count ≤ 10 →
    ∃ rc', rconLoop count i t rc = .ok rc'
  | 0, _, _, rc, _ => ⟨rc, rfl⟩
  | count + 1, i, t, rc, h => by
    simp only [rconLoop, writeElem_inside .rc rc i (rconNext t) (by omega), ok_bind]
    exact rconLoop_completes count (i + 1) _ _ (by omega)

/-- RoundConstants completes for every length the key sizes use. -/
theorem roundConstants_completes (ks : KeySize) (rc : Vector Byte 10) :
    ∃ rc', roundConstants (nrcOf ks) rc = .ok rc' := by
  have h := nrcOf_legal ks
  simp only [roundConstants, if_pos h, writeElem_inside .rc rc 0 0x01#8 (by omega), ok_bind]
  exact rconLoop_completes _ _ _ _ (by omega)

/-- RoundConstants refuses every other length (41_round_constants.md R143). -/
theorem roundConstants_refuses (n : Nat) (rc : Vector Byte 10) (h : ¬(n = 7 ∨ n = 8 ∨ n = 10)) :
    roundConstants n rc = .error (.refused (.constantCount n)) := by
  simp [roundConstants, h]

/-- The three cases of a schedule word, for an index whose reads are in range (43_key_schedule.md R172–R176). -/
theorem expandWord_eq (ks : KeySize) (rc : Vector Byte 10) (w : Vector Word 60) (i : Nat)
    (hc : i / nkOf ks - 1 < 10) (hi : i < 60) (hn : nkOf ks ≤ i) :
    expandWord ks rc w i =
      .ok (if nkOf ks = 8 ∧ (i - 4) % nkOf ks = 0 then subWord w[i - 1] ^^^ w[i - nkOf ks]
        else if (i - nkOf ks) % nkOf ks = 0 then
          (subWord (rotWord w[i - 1]) ^^^ word rc[i / nkOf ks - 1] 0#8 0#8 0#8) ^^^ w[i - nkOf ks]
        else w[i - 1] ^^^ w[i - nkOf ks]) := by
  have h1 : i - 1 < 60 := by omega
  have h2 : i - nkOf ks < 60 := by omega
  simp only [expandWord, readElem_inside .rc rc _ hc, readElem_inside .w w _ h1, readElem_inside .w w _ h2, ok_bind]
  split
  · rfl
  · split <;> rfl

/-- The index of the round constant stays in the table (43_key_schedule.md R171). -/
theorem constantIndex_lt (ks : KeySize) (i : Nat) (hi : i < scheduleLen ks) : i / nkOf ks - 1 < 10 := by
  cases ks <;> simp [scheduleLen, nrOf, nkOf] at * <;> omega

/-- One step of the expansion, at an index inside the schedule: the word is written and KI moves on or ends. -/
theorem expandStep_eq (ks : KeySize) (rc : Vector Byte 10) (e : Expander) (hs : e.seq = .expand)
    (hn : nkOf ks ≤ e.ki.toNat) (hi : e.ki.toNat < scheduleLen ks) :
    ∃ x, expandWord ks rc e.w e.ki.toNat = .ok x ∧
      expandStep ks rc e = .ok
        (if e.ki.toNat + 1 = scheduleLen ks then
          ⟨.done, e.ki, e.w.set e.ki.toNat x (Nat.lt_of_lt_of_le hi (scheduleLen_le ks))⟩
        else ⟨.expand, e.ki + 1, e.w.set e.ki.toNat x (Nat.lt_of_lt_of_le hi (scheduleLen_le ks))⟩) := by
  have h60 : e.ki.toNat < 60 := Nat.lt_of_lt_of_le hi (scheduleLen_le ks)
  refine ⟨_, expandWord_eq ks rc e.w _ (constantIndex_lt ks _ hi) h60 hn, ?_⟩
  simp only [expandStep, if_pos hs, expandWord_eq ks rc e.w _ (constantIndex_lt ks _ hi) h60 hn, ok_bind,
    writeElem_inside .w e.w _ _ h60]
  split <;> rfl

/-- The steps that remain from KI to the end of the schedule complete, with KI at its last index. -/
theorem expandSteps_completes (ks : KeySize) (rc : Vector Byte 10) : ∀ (count : Nat) (e : Expander),
    e.seq = .expand → nkOf ks ≤ e.ki.toNat → e.ki.toNat + (count + 1) = scheduleLen ks →
    ∃ e', expandSteps ks rc (count + 1) e = .ok e' ∧ e'.seq = .done ∧ e'.ki.toNat + 1 = scheduleLen ks
  | 0, e, hs, hn, hc => by
    obtain ⟨x, -, hx⟩ := expandStep_eq ks rc e hs hn (by omega)
    simp only [expandSteps, hx, ok_bind, if_pos (show e.ki.toNat + 1 = scheduleLen ks by omega)]
    exact ⟨_, rfl, rfl, by simpa using hc⟩
  | count + 1, e, hs, hn, hc => by
    obtain ⟨x, -, hx⟩ := expandStep_eq ks rc e hs hn (by omega)
    have hle := scheduleLen_le ks
    have hki : (e.ki + 1).toNat = e.ki.toNat + 1 := by
      rw [BitVec.toNat_add]
      exact Nat.mod_eq_of_lt (by simp; omega)
    rw [expandSteps, hx, ok_bind, if_neg (by omega)]
    exact expandSteps_completes ks rc count _ rfl (by simp only [hki]; omega) (by simp only [hki]; omega)

/-- Writing a list inside the space completes. -/
theorem memWrite_completes {α : Type} {n : Nat} (sp : Space) : ∀ (xs : List α) (v : Vector α n) (i : Nat),
    i + xs.length ≤ n → ∃ v', memWrite sp v i xs = .ok v'
  | [], v, _, _ => ⟨v, rfl⟩
  | x :: xs, v, i, h => by
    have hi : i < n := by simp at h; omega
    simp only [memWrite, writeElem_inside sp v i x hi, ok_bind]
    exact memWrite_completes sp xs _ (i + 1) (by simp at h; omega)

/-- KeyExpansion completes for every key size, key and table (43_key_schedule.md R178), with KI at the last index. -/
theorem keyExpansion_completes (ks : KeySize) (key : Vector Word 8) (rc : Vector Byte 10) (w : Vector Word 60) :
    ∃ e, keyExpansion ks key rc w = .ok e ∧ e.seq = .done ∧ e.ki.toNat + 1 = scheduleLen ks := by
  have hnk := nkOf_cases ks
  obtain ⟨w', hw⟩ := memWrite_completes .w (key.toList.take (nkOf ks)) w 0 (by simp)
  rw [keyExpansion, hw, ok_bind]
  obtain ⟨c, hc⟩ : ∃ c, scheduleLen ks - nkOf ks = c + 1 := ⟨scheduleLen ks - nkOf ks - 1, by
    have : nkOf ks < scheduleLen ks := by simp [scheduleLen, nrOf]; omega
    omega⟩
  have hlen : nkOf ks < scheduleLen ks := by simp [scheduleLen, nrOf]; omega
  rw [hc]
  have hk : (BitVec.ofNat 6 (nkOf ks)).toNat = nkOf ks := by
    rw [BitVec.toNat_ofNat]
    exact Nat.mod_eq_of_lt (by omega)
  exact expandSteps_completes ks rc c _ rfl (by simp only [hk]; omega) (by simp only [hk]; omega)

end Sys2Proof.Machine
end

