-- ==== Sys2Proof/Laws/PerInstr.lean ====
section
/-! SUPPORT. Per-instruction facts about command words: each constructor's word keeps the fixed bits of its row of
spec/opcode_table.json. -/

namespace Sys2Proof.Laws.FixedBits

/-- The `mask` of the instruction's row of spec/opcode_table.json. -/
def tableMask : Instr → BitVec 32
  | .createSession _ _ _ => 0xFFE0C0CF#32
  | .transformEnc _ => 0xFFFFE0FF#32
  | .transformDec _ => 0xFFFFE0FF#32
  | .closeSession => 0xFFFFFFFF#32

/-- The `match` of the instruction's row of spec/opcode_table.json. -/
def tableMatch : Instr → BitVec 32
  | .createSession _ _ _ => 0x00000001#32
  | .transformEnc _ => 0x00000002#32
  | .transformDec _ => 0x00000012#32
  | .closeSession => 0x00000003#32

/-- The word of an instruction has the fixed bits of its row. -/
def Statement (i : Instr) : Prop := encode i &&& tableMask i = tableMatch i

/-- A mask goes over each part of a disjunction. -/
theorem or_masked (a b m : BitVec 32) : (a ||| b) &&& m = (a &&& m) ||| (b &&& m) := by
  ext i
  simp [Bool.and_or_distrib_right]

theorem createSession (cons : Construction) (klen : BitVec 6) (ivlen : BitVec 5) :
    Statement (.createSession cons klen ivlen) := by
  have hv : ∀ v : BitVec 5, v.setWidth 32 <<< 16 &&& 0xFFE0C0CF#32 = 0#32 := by decide
  have hk : ∀ k : BitVec 6, k.setWidth 32 <<< 8 &&& 0xFFE0C0CF#32 = 0#32 := by decide
  have hc : ∀ c : BitVec 2, c.setWidth 32 <<< 4 &&& 0xFFE0C0CF#32 = 0#32 := by decide
  show encodeC cons klen ivlen &&& 0xFFE0C0CF#32 = 0x00000001#32
  rw [encodeC, or_masked, or_masked, or_masked, hv, hk, hc]
  rfl

theorem transformEnc (dlen : BitVec 5) : Statement (.transformEnc dlen) := by
  revert dlen
  unfold Statement
  decide

theorem transformDec (dlen : BitVec 5) : Statement (.transformDec dlen) := by
  revert dlen
  unfold Statement
  decide

theorem closeSession : Statement .closeSession := by
  unfold Statement
  decide

end Sys2Proof.Laws.FixedBits
end

