-- ==== Sys2Proof/Laws/Pipeline.lean ====
section
/-! SUPPORT. What the round-key mixer, the sequencer and the pipeline can answer (45_round_pipeline.md R220–R232). -/

namespace Sys2Proof.Machine

/-- The words of round key `r`, in range (43_key_schedule.md R181). -/
theorem roundKey_eq (w : Vector Word 60) (r : Nat) (h : r ≤ 14) :
    roundKey w r = .ok #v[w[4 * r], w[4 * r + 1], w[4 * r + 2], w[4 * r + 3]] := by
  simp only [roundKey, readElem_inside .w w (4 * r) (by omega), readElem_inside .w w (4 * r + 1) (by omega),
    readElem_inside .w w (4 * r + 2) (by omega), readElem_inside .w w (4 * r + 3) (by omega), ok_bind]
  rfl

/-- A round key beyond the word file faults. -/
theorem roundKey_outside (w : Vector Word 60) (r : Nat) (h : 15 ≤ r) :
    roundKey w r = .error (.fault (.storageIndex .w (4 * r))) := by
  simp only [roundKey, readElem_outside .w w (4 * r) (by omega)]
  rfl

/-- AddRoundKey, in range. -/
theorem addRoundKey_eq (w : Vector Word 60) (r : Nat) (s : CState) (h : r ≤ 14) :
    addRoundKey w r s = .ok (addWords #v[w[4 * r], w[4 * r + 1], w[4 * r + 2], w[4 * r + 3]] s) := by
  rw [addRoundKey, roundKey_eq w r h, ok_bind]
  rfl

/-- AddRoundKey never fails in range. -/
theorem addRoundKey_completes (w : Vector Word 60) (r : Nat) (s : CState) (h : r ≤ 14) :
    ∃ t, addRoundKey w r s = .ok t := ⟨_, addRoundKey_eq w r s h⟩

/-- A full round of ROUND_ENC. -/
theorem encStep_full (w : Vector Word 60) (nr : BitVec 4) (p : Pipe) (hs : p.seq = .roundEnc)
    (h1 : 1 ≤ p.rnd.toNat) (h2 : p.rnd.toNat < nr.toNat) :
    encStep w nr p = (addRoundKey w p.rnd.toNat (mixColumns (shiftRows (subBytes p.st)))).bind
      fun st => .ok ⟨.roundEnc, p.rnd + 1, st⟩ := by
  simp only [encStep, if_pos (show p.seq = .roundEnc ∧ 1 ≤ p.rnd.toNat ∧ p.rnd.toNat < nr.toNat from ⟨hs, h1, h2⟩)]
  rfl

/-- The final round of ROUND_ENC (45_round_pipeline.md R225). -/
theorem encStep_final (w : Vector Word 60) (nr : BitVec 4) (p : Pipe) (hs : p.seq = .roundEnc) (h : p.rnd = nr) :
    encStep w nr p = (addRoundKey w nr.toNat (shiftRows (subBytes p.st))).bind
      fun st => .ok ⟨.done, p.rnd, st⟩ := by
  simp only [encStep, if_neg (show ¬(p.seq = .roundEnc ∧ 1 ≤ p.rnd.toNat ∧ p.rnd.toNat < nr.toNat) by
    rw [h]; omega), if_pos (show p.seq = .roundEnc ∧ p.rnd = nr from ⟨hs, h⟩)]
  rfl

/-- An inverse round of ROUND_DEC. -/
theorem decStep_full (w : Vector Word 60) (p : Pipe) (hs : p.seq = .roundDec) (h1 : 1 ≤ p.rnd.toNat) :
    decStep w p = (addRoundKey w p.rnd.toNat (invSubBytes (invShiftRows p.st))).bind
      fun st => .ok ⟨.roundDec, p.rnd - 1, invMixColumns st⟩ := by
  simp only [decStep, if_pos (show p.seq = .roundDec ∧ 1 ≤ p.rnd.toNat from ⟨hs, h1⟩)]
  rfl

/-- The last step of ROUND_DEC (45_round_pipeline.md R227). -/
theorem decStep_final (w : Vector Word 60) (p : Pipe) (hs : p.seq = .roundDec) (h : p.rnd.toNat = 0) :
    decStep w p = (addRoundKey w 0 (invSubBytes (invShiftRows p.st))).bind fun st => .ok ⟨.done, p.rnd, st⟩ := by
  simp only [decStep, if_neg (show ¬(p.seq = .roundDec ∧ 1 ≤ p.rnd.toNat) by omega), if_pos hs]
  rfl

/-- All a pipeline run can answer: the session is open, NR is legal, the rounds ran, and only SEQ, RND and S differ;
the block is S read out. -/
theorem runPipeline_eq_ok {m : Mode} {blk : Block} {s : State} {r : State × Block}
    (h : runPipeline m blk s = .ok r) :
    s.session = .opened ∧
      (configNr s.config = 10#4 ∨ configNr s.config = 12#4 ∨ configNr s.config = 14#4) ∧
      ∃ p, runRounds m s.w (configNr s.config) blk = .ok p ∧
        r = ({ s with seq := p.seq, rnd := p.rnd, st := p.st }, storeState p.st) := by
  unfold runPipeline at h
  split at h
  · cases h
  · next hs =>
    split at h
    · next hn =>
      obtain ⟨p, hp, hr⟩ := bind_eq_ok h
      exact ⟨not_not.mp hs, hn, p, hp, (Except.ok.inj hr).symm⟩
    · cases h

/-- With no open session the pipeline is refused (45_round_pipeline.md R223). -/
theorem runPipeline_noSession (m : Mode) (blk : Block) (s : State) (h : s.session ≠ .opened) :
    runPipeline m blk s = .error (.refused .pipelineWithoutSession) := by
  simp [runPipeline, h]

/-- All a block function of a TRANSFORM can leave, whatever the construction: it writes at most SEQ, RND, S, CAP,
PREV and FIRST (46_chaining.md R252, R253, R255). -/
theorem transformBlock_frame {m : Mode} {blk : Block} {s : State} {r : State × Block}
    (h : transformBlock m blk s = .ok r) :
    r.1 = { s with seq := r.1.seq, rnd := r.1.rnd, st := r.1.st, cap := r.1.cap, prev := r.1.prev,
                   first := r.1.first } := by
  unfold transformBlock at h
  split at h
  · obtain ⟨-, -, p, -, rfl⟩ := runPipeline_eq_ok h
    rfl
  · cases m with
    | enc =>
      obtain ⟨y, hy, hr⟩ := bind_eq_ok h
      obtain ⟨-, -, p, -, rfl⟩ := runPipeline_eq_ok hy
      cases Except.ok.inj hr
      rfl
    | dec =>
      obtain ⟨y, hy, hr⟩ := bind_eq_ok h
      obtain ⟨-, -, p, -, rfl⟩ := runPipeline_eq_ok hy
      cases Except.ok.inj hr
      rfl

end Sys2Proof.Machine
end

