-- ==== Sys2Proof/Laws/State.lean ====
section
/-! SUPPORT. What each named update of the state leaves in each field, one lemma a field, true by unfolding once.
Later proofs cite these and unfold no record update. -/

namespace Sys2Proof.Machine

section Release
variable (s : State)

@[simp] theorem release_session : (release s).session = .idle := rfl
@[simp] theorem release_config : (release s).config = 0#16 := rfl
@[simp] theorem release_status : (release s).status = s.status := rfl
@[simp] theorem release_busy : (release s).busy = s.busy := rfl
@[simp] theorem release_w : (release s).w = Vector.replicate 60 0#32 := rfl
@[simp] theorem release_rc : (release s).rc = Vector.replicate 10 0#8 := rfl
@[simp] theorem release_iv : (release s).iv = zeroBlock := rfl
@[simp] theorem release_prev : (release s).prev = zeroBlock := rfl
@[simp] theorem release_first : (release s).first = false := rfl
@[simp] theorem release_st : (release s).st = s.st := rfl
@[simp] theorem release_cap : (release s).cap = zeroBlock := rfl
@[simp] theorem release_dout : (release s).dout = s.dout := rfl
@[simp] theorem release_seq : (release s).seq = s.seq := rfl
@[simp] theorem release_rnd : (release s).rnd = s.rnd := rfl
@[simp] theorem release_ki : (release s).ki = s.ki := rfl
@[simp] theorem release_cmdl : (release s).cmdl = s.cmdl := rfl
@[simp] theorem release_keyl : (release s).keyl = s.keyl := rfl
@[simp] theorem release_ivl : (release s).ivl = s.ivl := rfl
@[simp] theorem release_dinl : (release s).dinl = s.dinl := rfl
@[simp] theorem release_rspValid : (release s).rspValid = s.rspValid := rfl
@[simp] theorem release_host : (release s).host = s.host := rfl

/-- A second release changes nothing more. -/
theorem release_release : release (release s) = release s := rfl

end Release

section Raise
variable (s : State) (e : Status)

@[simp] theorem raiseError_status : (raiseError e s).status = e := rfl
@[simp] theorem raiseError_busy : (raiseError e s).busy = s.busy := by cases e <;> rfl
@[simp] theorem raiseError_st : (raiseError e s).st = s.st := by cases e <;> rfl
@[simp] theorem raiseError_dout : (raiseError e s).dout = s.dout := by cases e <;> rfl
@[simp] theorem raiseError_seq : (raiseError e s).seq = s.seq := by cases e <;> rfl
@[simp] theorem raiseError_rnd : (raiseError e s).rnd = s.rnd := by cases e <;> rfl
@[simp] theorem raiseError_ki : (raiseError e s).ki = s.ki := by cases e <;> rfl
@[simp] theorem raiseError_cmdl : (raiseError e s).cmdl = s.cmdl := by cases e <;> rfl
@[simp] theorem raiseError_keyl : (raiseError e s).keyl = s.keyl := by cases e <;> rfl
@[simp] theorem raiseError_ivl : (raiseError e s).ivl = s.ivl := by cases e <;> rfl
@[simp] theorem raiseError_dinl : (raiseError e s).dinl = s.dinl := by cases e <;> rfl
@[simp] theorem raiseError_rspValid : (raiseError e s).rspValid = s.rspValid := by cases e <;> rfl
@[simp] theorem raiseError_host : (raiseError e s).host = s.host := by cases e <;> rfl

/-- Only IncompleteFinalBlock touches the key material and the chaining context, and it releases them. -/
theorem raiseError_context (h : e ≠ .incompleteFinalBlock) :
    (raiseError e s).config = s.config ∧ (raiseError e s).w = s.w ∧ (raiseError e s).rc = s.rc ∧
      (raiseError e s).iv = s.iv ∧ (raiseError e s).prev = s.prev ∧ (raiseError e s).first = s.first ∧
      (raiseError e s).cap = s.cap := by
  cases e <;> first | exact absurd rfl h | exact ⟨rfl, rfl, rfl, rfl, rfl, rfl, rfl⟩

theorem raiseError_incompleteFinalBlock :
    raiseError .incompleteFinalBlock s =
      { release s with session := .failed, status := .incompleteFinalBlock } := rfl

theorem raiseError_noSession : raiseError .noSession s = { s with status := .noSession } := rfl
theorem raiseError_sessionAborted : raiseError .sessionAborted s = { s with status := .sessionAborted } := rfl
theorem raiseError_illegalCommand : raiseError .illegalCommand s = { s with status := .illegalCommand } := rfl

end Raise

section Ports
variable (s : State) (p : PortsIn)

@[simp] theorem accept_session : (accept p s).session = s.session := rfl
@[simp] theorem accept_config : (accept p s).config = s.config := rfl
@[simp] theorem accept_status : (accept p s).status = s.status := rfl
@[simp] theorem accept_busy : (accept p s).busy = true := rfl
@[simp] theorem accept_w : (accept p s).w = s.w := rfl
@[simp] theorem accept_rc : (accept p s).rc = s.rc := rfl
@[simp] theorem accept_iv : (accept p s).iv = s.iv := rfl
@[simp] theorem accept_prev : (accept p s).prev = s.prev := rfl
@[simp] theorem accept_first : (accept p s).first = s.first := rfl
@[simp] theorem accept_st : (accept p s).st = s.st := rfl
@[simp] theorem accept_cap : (accept p s).cap = s.cap := rfl
@[simp] theorem accept_dout : (accept p s).dout = s.dout := rfl
@[simp] theorem accept_seq : (accept p s).seq = s.seq := rfl
@[simp] theorem accept_rnd : (accept p s).rnd = s.rnd := rfl
@[simp] theorem accept_ki : (accept p s).ki = s.ki := rfl
@[simp] theorem accept_cmdl : (accept p s).cmdl = p.cmd := rfl
@[simp] theorem accept_keyl : (accept p s).keyl = wordsOfPort p.keyIn := rfl
@[simp] theorem accept_ivl : (accept p s).ivl = blockOfPort p.ivIn := rfl
@[simp] theorem accept_dinl : (accept p s).dinl = blockOfPort p.din := rfl
@[simp] theorem accept_rspValid : (accept p s).rspValid = false := rfl
@[simp] theorem accept_host : (accept p s).host = s.host := rfl

theorem complete_eq : complete s = { s with busy := false, rspValid := true } := rfl
@[simp] theorem complete_session : (complete s).session = s.session := rfl
@[simp] theorem complete_config : (complete s).config = s.config := rfl
@[simp] theorem complete_status : (complete s).status = s.status := rfl
@[simp] theorem complete_busy : (complete s).busy = false := rfl
@[simp] theorem complete_w : (complete s).w = s.w := rfl
@[simp] theorem complete_rc : (complete s).rc = s.rc := rfl
@[simp] theorem complete_iv : (complete s).iv = s.iv := rfl
@[simp] theorem complete_prev : (complete s).prev = s.prev := rfl
@[simp] theorem complete_first : (complete s).first = s.first := rfl
@[simp] theorem complete_st : (complete s).st = s.st := rfl
@[simp] theorem complete_cap : (complete s).cap = s.cap := rfl
@[simp] theorem complete_dout : (complete s).dout = s.dout := rfl
@[simp] theorem complete_seq : (complete s).seq = s.seq := rfl
@[simp] theorem complete_rnd : (complete s).rnd = s.rnd := rfl
@[simp] theorem complete_ki : (complete s).ki = s.ki := rfl
@[simp] theorem complete_cmdl : (complete s).cmdl = s.cmdl := rfl
@[simp] theorem complete_keyl : (complete s).keyl = s.keyl := rfl
@[simp] theorem complete_ivl : (complete s).ivl = s.ivl := rfl
@[simp] theorem complete_dinl : (complete s).dinl = s.dinl := rfl
@[simp] theorem complete_rspValid : (complete s).rspValid = true := rfl
@[simp] theorem complete_host : (complete s).host = s.host := rfl

/-- `quiet` touches nothing but the level of `rsp_valid`. -/
theorem quiet_eq : quiet s = { s with rspValid := false } := rfl
@[simp] theorem quiet_rspValid : (quiet s).rspValid = false := rfl
@[simp] theorem quiet_busy : (quiet s).busy = s.busy := rfl

/-- `resetEdge` keeps nothing but the host's coming inputs. -/
theorem resetEdge_eq : resetEdge s = { State.reset with host := s.host } := rfl
@[simp] theorem resetEdge_host : (resetEdge s).host = s.host := rfl
@[simp] theorem resetEdge_busy : (resetEdge s).busy = false := rfl
@[simp] theorem resetEdge_rspValid : (resetEdge s).rspValid = false := rfl

end Ports

section Chain
variable (s : State)

theorem setupChain_cbc :
    setupChain true s = { s with iv := s.ivl, prev := zeroBlock, first := true } := rfl
theorem setupChain_ecb :
    setupChain false s = { s with iv := zeroBlock, prev := zeroBlock, first := false } := rfl

@[simp] theorem advanceChain_prev (b : Block) : (advanceChain b s).prev = b := rfl
@[simp] theorem advanceChain_first (b : Block) : (advanceChain b s).first = false := rfl
theorem advanceChain_eq (b : Block) : advanceChain b s = { s with prev := b, first := false } := rfl

theorem chainValue_first (h : s.first = true) : chainValue s = s.iv := by simp [chainValue, h]
theorem chainValue_later (h : s.first = false) : chainValue s = s.prev := by simp [chainValue, h]

theorem writeResult_eq (r : State × Block) :
    writeResult r = { r.1 with dout := r.2, seq := .ready, status := .ok } := rfl

end Chain

end Sys2Proof.Machine
end

