-- ==== Sys2Proof/Laws/Step.lean ====
section
/-! SUPPORT. What a step can do: one lemma for a transaction, one for a step (30_encoding.md R100–R105). -/

namespace Sys2Proof.Machine

/-- A completed command's state is its rule's state, completed. -/
theorem completeOutcome_eq_next {o : Host.Outcome State Fault Refusal} {t : State} :
    completeOutcome o = .next t ↔ ∃ u, o = .next u ∧ t = complete u := by
  cases o with
  | next u => simp [completeOutcome, eq_comm]
  | fault f => simp [completeOutcome]
  | refused r => simp [completeOutcome]

/-- All the run of a latched command can answer: IllegalCommand for an Illegal word, else what `exec` gives
(47_commands.md R270). -/
theorem executeLatched_eq_next {s t : State} :
    executeLatched s = .next t ↔
      (∃ r, decode s.cmdl = .error r ∧ t = complete (raiseError .illegalCommand s)) ∨
      (∃ i u, decode s.cmdl = .ok i ∧ exec i s = .next u ∧ t = complete u) := by
  unfold executeLatched
  cases h : decode s.cmdl with
  | error r => simp [eq_comm]
  | ok i => simp [completeOutcome_eq_next]

/-- All a transaction can answer. -/
theorem transact_eq_next {p : PortsIn} {s t : State} :
    transact p s = .next t ↔
      (p.rst = true ∧ t = resetEdge s) ∨
      (p.rst = false ∧ p.cmdValid = true ∧ executeLatched (accept p s) = .next t) ∨
      (p.rst = false ∧ p.cmdValid = false ∧ t = quiet s) := by
  unfold transact
  cases p.rst <;> cases p.cmdValid <;> simp [eq_comm]

/-- A step of a core that executes nothing is the transaction of the host's next input. -/
theorem step_idle (s : State) (h : s.busy = false) :
    step s = transact (takeInput s).1 (takeInput s).2 := by
  simp [step, stepOnce, h]

/-- Taking an input touches nothing but what the host will drive. -/
theorem takeInput_state (s : State) : (takeInput s).2 = { s with host := s.host.tail } := by
  obtain ⟨⟩ := s
  unfold takeInput
  split <;> simp_all

end Sys2Proof.Machine
end

