-- ==== Sys2Proof/Tests/Slice0.lean ====
section
/-! SUPPORT. Tests of single steps. Every expected value is a vector of spec/95_test_vectors.md, named at each test, or
is read off a rule. -/

namespace Sys2Proof.Tests

open Sys2Proof.Machine

/-! ### Well-formedness -/

/-- 30_encoding.md R109: a data length of 17 is no instruction's. -/
theorem test_wf_enc_refused : WellFormed (.transformEnc 17#5) = false := by decide

/-- 30_encoding.md R109: nor is 31. -/
theorem test_wf_dec_refused : WellFormed (.transformDec 31#5) = false := by decide

/-- 30_encoding.md R108, R109, R114: the largest field values, and GCM, are well formed. -/
theorem test_wf_accepted :
    WellFormed (.createSession .gcm 63#6 31#5) = true ∧ WellFormed (.transformEnc 16#5) = true ∧
      WellFormed (.transformDec 16#5) = true ∧ WellFormed .closeSession = true := by decide

/-! ### Decoding: words written out bit by bit from the patterns of 30_encoding.md R108–R110 -/

/-- Format C, `00000000000VVVVV00KKKKKK00CC0001`: V = 10000, K = 010000, C = 01. -/
theorem test_decode_create : decode 0b00000000000100000001000000010001#32 = .ok (.createSession .cbc 16#6 16#5) := by
  decide

/-- Format C with the largest KLEN and IVLEN and C = 10. -/
theorem test_decode_create_largest :
    decode 0b00000000000111110011111100100001#32 = .ok (.createSession .gcm 63#6 31#5) := by decide

/-- Format T, `0000000000000000000LLLLL000M0010`: L = 01111, M = 0. -/
theorem test_decode_enc : decode 0b00000000000000000000111100000010#32 = .ok (.transformEnc 15#5) := by decide

/-- Format T: L = 10000, M = 1. -/
theorem test_decode_dec : decode 0b00000000000000000001000000010010#32 = .ok (.transformDec 16#5) := by decide

/-- Format Z. -/
theorem test_decode_close : decode 0b00000000000000000000000000000011#32 = .ok .closeSession := by decide

/-- L2.18: one illegal word for each reason. -/
theorem test_decode_illegal :
    decode 0x00001031#32 = .error .reservedConstruction ∧ decode 0x00001041#32 = .error .reservedBits ∧
      decode 0x00201001#32 = .error .reservedBits ∧ decode 0x00001102#32 = .error .dataTooLong ∧
      decode 0x00001022#32 = .error .reservedBits ∧ decode 0x00000013#32 = .error .reservedBits ∧
      decode 0x00000004#32 = .error .reservedOpcode := by decide

/-- The table's numbering of the bits is that of the command word. -/
theorem test_decodeTableWord :
    decodeTableWord 32 0x00101011 = some (.createSession .cbc 16#6 16#5) ∧
      decodeTableWord 32 0x00000000 = none := by decide

/-! ### One step of each instruction -/

/-- The state after reset with the key `00..0f`, the IV `00..0f` and the block `0011..ff` in the latches
(95_test_vectors.md L2.19). -/
def latched : State :=
  { State.reset with
    keyl := wordsOfPort 0x000102030405060708090a0b0c0d0e0f00000000000000000000000000000000#256
    ivl := blockOfPort 0x000102030405060708090a0b0c0d0e0f#128
    dinl := blockOfPort 0x00112233445566778899aabbccddeeff#128 }

/-- The next state of an outcome; the state after reset if it stops. -/
def after : Host.Outcome State Fault Refusal → State
  | .next s => s
  | _ => State.reset

/-- OPEN-ECB and OPEN-CBC of L2.19. -/
def opened (c : Construction) : State := after (exec (.createSession c 16#6 16#5) latched)

/-- L2.19, L2.20 and L2.7: CONFIG, FIRST and the last word of the 128-bit schedule. -/
theorem test_create_opens :
    (opened .cbc).session = .opened ∧ (opened .cbc).config = 0xAA41#16 ∧ (opened .cbc).first = true ∧
      (opened .cbc).w[43] = 0x4d2b30c5#32 ∧ (opened .cbc).w[44] = 0#32 := by decide +kernel

/-- L2.19: `create gcm, klen=15` reports the key length first. -/
theorem test_create_priority :
    (after (exec (.createSession .gcm 15#6 0#5) latched)).status = .invalidKeyLength := by decide

/-- L1.3: the known-answer vector. -/
theorem test_enc_known_answer :
    portOfBlock (after (exec (.transformEnc 16#5) (opened .ecb))).dout = 0x69c4e0d86a7b0430d8cdb78070b4c55a#128 := by
  decide +kernel

/-- L2.19: a partial block fails the session and keeps DOUT. -/
theorem test_enc_partial :
    (after (exec (.transformEnc 15#5) { latched with session := .opened })).session = .failed ∧
      (after (exec (.transformEnc 15#5) { latched with session := .opened })).dout = zeroBlock := by decide

/-- L2.19, OPEN-CBC `transform dec`: DOUT, and PREV takes the incoming block. -/
theorem test_dec_cbc :
    portOfBlock (after (exec (.transformDec 16#5) (opened .cbc))).dout = 0x762b58b60d2c1e9be7d293484b9da4d7#128 ∧
      (after (exec (.transformDec 16#5) (opened .cbc))).prev = latched.dinl := by decide +kernel

/-- L2.19, FAILED `transform dec, dlen=8`. -/
theorem test_dec_failed :
    (after (exec (.transformDec 8#5) { latched with session := .failed })).status = .sessionAborted := by decide

/-- L2.19, `close` in OPEN. -/
theorem test_close_open :
    (after (exec .closeSession { latched with session := .opened, config := 0xAA40#16 })).session = .idle ∧
      (after (exec .closeSession { latched with session := .opened, config := 0xAA40#16 })).config = 0#16 := by decide

/-- L2.19, `close` in IDLE. -/
theorem test_close_idle : exec .closeSession latched = .next { latched with status := .noSession } := rfl

/-! ### The step around an instruction -/

/-- 30_encoding.md R103, R104: the word placed for the next step is accepted, run and answered. -/
theorem test_fetch_word :
    (after (step (State.reset.withFetchWord 32 0x00000003))).status = .noSession ∧
      (after (step (State.reset.withFetchWord 32 0x00000003))).cmdl = 0x00000003#32 ∧
      (after (step (State.reset.withFetchWord 32 0x00000003))).rspValid = true ∧
      (after (step (State.reset.withFetchWord 32 0x00000003))).host = [] := by decide

/-- 70_reset_and_hazards.md R352: a reset at a step with a command executing. -/
theorem test_reset_while_busy :
    step { latched with busy := true, host := [{ idlePorts with rst := true }] } = .next State.reset := rfl

/-- 30_encoding.md R119, R120, R122: a line of assembly. -/
theorem test_assemble :
    (assembleText "transform dec, dlen=16, din=0011223344".toList).map
      (fun p => (p.cmd, p.din)) = some (0x00001012#32, 0x00112233440000000000000000000000#128) := by decide +kernel

end Sys2Proof.Tests
end

