-- ==== Sys2Proof/Tests/Witnesses.lean ====
section
/-! SUPPORT. For every statement with hypotheses, a concrete state and operands that meet them all together, one for
each clause, at a boundary value where the clause has a range. -/

namespace Sys2Proof.Tests

open Sys2Proof.Machine

/-- A state in which a step or an instruction goes on. -/
abbrev Completes {α : Type} (o : Host.Outcome α Fault Refusal) : Prop := ∃ t, o = .next t

/-- Ports that offer a command, with no reset. -/
def offer (cmd : BitVec 32) : PortsIn := wordPorts cmd

/-- Ports that drive a reset and offer a command. -/
def resetPorts : PortsIn := { wordPorts 0x00001001#32 with rst := true }

/-- A session of each construction is open and can transform. -/
theorem witness_canTransform :
    CanTransform (opened .ecb) ∧ configCons (opened .ecb).config = 0#2 ∧
      CanTransform (opened .cbc) ∧ configCons (opened .cbc).config = 1#2 ∧ (opened .cbc).first = true := by
  unfold CanTransform
  decide +kernel

/-- An open session can transform at the largest round count, too. -/
theorem witness_canTransform_largest :
    CanTransform (after (exec (.createSession .ecb 32#6 0#5) latched)) := by
  unfold CanTransform
  decide +kernel

/-- A CBC session after its first block. -/
theorem witness_later_block :
    CanTransform (after (exec (.transformEnc 16#5) (opened .cbc))) ∧
      (after (exec (.transformEnc 16#5) (opened .cbc))).first = false := by
  unfold CanTransform
  decide +kernel

/-! ### Encoding -/

theorem witness_decodeEncodeRoundTrip :
    WellFormed (.transformDec 16#5) = true ∧ WellFormed (.createSession .gcm 63#6 31#5) = true := by decide

theorem witness_encodeDecodeRoundTrip : decode 0x001F3F21#32 = .ok (.createSession .gcm 63#6 31#5) := by decide

/-- One word for each way to be illegal, then one for each row of the table. -/
theorem witness_decoderFollowsPseudocode_opcodes :
    IllegalWord 0x00000000#32 ∧ IllegalWord 0x00000004#32 ∧ IllegalWord 0x0000000F#32 := by
  unfold IllegalWord
  decide

theorem witness_decoderFollowsPseudocode_create :
    IllegalWord 0x00001031#32 ∧ IllegalWord 0x00201001#32 ∧ ¬IllegalWord 0x001F3F21#32 := by
  unfold IllegalWord
  decide

theorem witness_decoderFollowsPseudocode_transform :
    (IllegalWord 0x00001102#32 ∧ IllegalWord 0x00002002#32) ∧ ¬IllegalWord 0x00001002#32 := by
  unfold IllegalWord
  decide

theorem witness_decoderFollowsPseudocode_close :
    IllegalWord 0x00000013#32 ∧ ¬IllegalWord 0x00000003#32 ∧ ¬IllegalWord 0x00001012#32 := by
  unfold IllegalWord
  decide

/-! ### Steps, acceptance and reset -/

theorem witness_stepRunsDecodedInstruction :
    (latched.busy = false ∧ { latched with host := [offer 0x00001001#32] }.host = [offer 0x00001001#32] ∧
      (offer 0x00001001#32).rst = false ∧ (offer 0x00001001#32).cmdValid = true ∧
      decode (offer 0x00001001#32).cmd = .ok (.createSession .ecb 16#6 0#5)) ∧
    ({ latched with busy := true, cmdl := 3#32 }.busy = true ∧ (∀ p ∈ latched.host.head?, p.rst = false) ∧
      decode { latched with busy := true, cmdl := 3#32 }.cmdl = .ok .closeSession) ∧
    ({ latched with busy := true, host := [resetPorts] }.host = [resetPorts] ∧ resetPorts.rst = true) := by decide

theorem witness_stepWithoutCommandIsQuiet :
    State.reset.busy = false ∧ State.reset.host = [] ∧
      (State.reset.withFetchWord 32 0).busy = false ∧ idlePorts.rst = false ∧ idlePorts.cmdValid = false := by decide

theorem witness_illegalWordChangesOnlyStatus :
    (offer 0x00001102#32).rst = false ∧ (offer 0x00001102#32).cmdValid = true ∧
      IllegalWord (offer 0x00001102#32).cmd := by
  unfold IllegalWord
  decide

/-- A reset over an open session, at the edge a command is offered. -/
theorem witness_resetEdge : resetPorts.rst = true ∧ resetPorts.cmdValid = true := by decide

theorem witness_resetOverridesEverything :
    resetPorts.rst = true ∧ { latched with busy := true }.busy = true ∧
      (Clocked.mk { latched with busy := true } 5).core.host = (Clocked.mk State.reset 0).core.host := by decide

theorem witness_portProtocol :
    (offer 3#32).rst = false ∧ (offer 3#32).cmdValid = true ∧ (Clocked.mk latched 0).core.busy = false ∧
      (Clocked.mk { latched with busy := true } 0).core.busy = true ∧ idlePorts.rst = false := by decide

/-- The edge at which the latched CLOSE_SESSION completes, whatever the latency is. -/
theorem witness_portProtocol_completion :
    ∃ c', clockEdge idlePorts ⟨accept (offer 3#32) latched, latency (accept (offer 3#32) latched)⟩ = .next c' ∧
      c'.core.rspValid = true := by
  refine ⟨⟨complete (raiseError .noSession (accept (offer 3#32) latched)), 0⟩, ?_, rfl⟩
  have h : ¬(latency (accept (offer 3#32) latched) + 1 < latency (accept (offer 3#32) latched)) := by omega
  simp only [clockEdge, if_neg h]
  rfl

theorem witness_clockCarriesTransaction :
    (Clocked.mk latched 0).core.busy = false ∧ (offer 3#32).rst = false ∧ (offer 3#32).cmdValid = true ∧
      (List.replicate (latency (accept (offer 3#32) latched)) idlePorts).length =
        latency (accept (offer 3#32) latched) ∧
      ∀ q ∈ List.replicate (latency (accept (offer 3#32) latched)) idlePorts, q.rst = false :=
  ⟨rfl, rfl, rfl, List.length_replicate, fun _ hq => (List.eq_of_mem_replicate hq) ▸ rfl⟩

/-- Two cores with different keys and data, the same TRANSFORM in their latches. -/
theorem witness_latencyIgnoresKeyAndData :
    AgreeOnControl { opened .ecb with cmdl := 0x00001002#32 }
        { opened .ecb with cmdl := 0x00001002#32, keyl := zeroWords.take 8, w := zeroWords, dinl := zeroBlock } ∧
      (opened .ecb).w ≠ zeroWords := by
  unfold AgreeOnControl
  decide +kernel

/-! ### Invariants -/

/-- The expansion of the key in the latches. -/
def expanded (rc : Vector Byte 10) : Expander :=
  match keyExpansion .k128 latched.keyl rc zeroWords with
  | .ok e => e
  | .error _ => ⟨.ready, 0#6, zeroWords⟩

/-- An open session meets the invariant: a state in which every step has something to keep. -/
theorem witness_inv_open : Inv (opened .cbc) ∧ (opened .cbc).session = .opened := by
  refine ⟨⟨by decide +kernel, by decide +kernel, fun _ => ?_, fun h => absurd (by decide +kernel) h⟩,
    by decide +kernel⟩
  refine ⟨.k128, .cbc, latched.keyl, by decide, by decide +kernel, ⟨by decide +kernel, ?_⟩, ?_⟩
  · exact ⟨expanded (opened .cbc).rc, by decide +kernel, by decide +kernel⟩
  · unfold ChainOk
    decide +kernel

/-- A failed session meets it too. -/
theorem witness_inv_failed : Inv { State.reset with session := .failed, status := .incompleteFinalBlock } :=
  ⟨rfl, rfl, fun h => absurd h (by decide), fun _ => ⟨rfl, rfl, rfl, rfl, rfl, rfl, rfl⟩⟩

theorem witness_stepKeepsInvariant :
    Inv (State.reset.withFetchWord 32 0x00000003) ∧ Completes (step (State.reset.withFetchWord 32 0x00000003)) :=
  ⟨⟨rfl, rfl, fun h => absurd h (by decide), fun _ => ⟨rfl, rfl, rfl, rfl, rfl, rfl, rfl⟩⟩, _, rfl⟩

theorem witness_stepKeepsOwnStatus : Completes (step State.reset) ∧ OwnStatus State.reset.status :=
  ⟨⟨_, rfl⟩, by decide, by decide⟩

theorem witness_sessionLifeCycle :
    (offer 0x00000802#32).rst = false ∧ (offer 0x00000802#32).cmdValid = true ∧
      Completes (transact (offer 0x00000802#32) { latched with session := .opened }) :=
  ⟨rfl, rfl, _, rfl⟩

theorem witness_doutOnlyFromTransform : Completes (exec .closeSession latched) := ⟨_, rfl⟩

/-! ### Release, errors and sessions -/

theorem witness_releaseZeroesTheContext : { latched with session := .failed }.session ≠ .idle := by decide

theorem witness_createErrors :
    ((15#6).toNat ≠ 16 ∧ (15#6).toNat ≠ 24 ∧ (15#6).toNat ≠ 32) ∧
      ((33#6).toNat ≠ 16 ∧ (33#6).toNat ≠ 24 ∧ (33#6).toNat ≠ 32) ∧ (32#6).toNat = 32 ∧
      (15#5).toNat ≠ 16 ∧ (17#5).toNat ≠ 16 := by decide

theorem witness_createOpensSession :
    keySizeOfBytes (32#6).toNat = some .k256 ∧ Construction.ecb ≠ .cbc ∧ (16#5).toNat = 16 := by decide

/-- A key that differs in a word the size does not use. -/
theorem witness_unusedOperandsIgnored :
    keySizeOfBytes (16#6).toNat = some .k128 ∧
      (∀ (j : Nat) (h : j < 8), j < nkOf .k128 → (latched.keyl.set 4 0xFFFFFFFF#32)[j] = latched.keyl[j]) ∧
      latched.keyl.set 4 0xFFFFFFFF#32 ≠ latched.keyl ∧
      Completes (exec (.createSession .gcm 16#6 0#5) latched) ∧
      Completes (exec (.createSession .ecb 15#6 0#5) latched) ∧ Completes (exec .closeSession latched) := by
  refine ⟨by decide, ?_, by decide, ⟨_, rfl⟩, ⟨_, rfl⟩, ⟨_, rfl⟩⟩
  intro j h hj
  have h4 : j < 4 := hj
  exact Vector.getElem_set_ne (by omega) h (by omega)

theorem witness_createForgetsWhatCameBefore :
    (opened .cbc).keyl = latched.keyl ∧ (opened .cbc).ivl = latched.ivl ∧ opened .cbc ≠ latched := by decide +kernel

theorem witness_closeReleases :
    { latched with session := .opened }.session = .opened ∧ { latched with session := .failed }.session = .failed ∧
      latched.session = .idle ∧ Completes (exec .closeSession latched) :=
  ⟨rfl, rfl, rfl, _, rfl⟩

theorem witness_transformWithoutSession :
    (16#5).toNat ≤ 16 ∧ latched.session = .idle ∧ { latched with session := .failed }.session = .failed := by decide

theorem witness_partialBlockFailsSession :
    { latched with session := .opened }.session = .opened ∧ (15#5).toNat < 16 := by decide

theorem witness_errorPriority :
    (offer 0#32).rst = false ∧ (offer 0#32).cmdValid = true ∧ decode (offer 0#32).cmd = .error .reservedOpcode ∧
      (16#5).toNat ≤ 16 := by decide

theorem witness_overlongTransformIsIllegal : 16 < (17#5).toNat ∧ 16 < (31#5).toNat := by decide

/-- A 16-byte block on an open session, where the third clause asks for CanTransform. -/
theorem witness_errorPriority_open :
    (opened .ecb).session = .opened → (16#5).toNat = 16 → CanTransform (opened .ecb) :=
  fun _ _ => witness_canTransform.1

/-! ### TRANSFORM -/

theorem witness_ecbCompletes : CanTransform (opened .ecb) ∧ configCons (opened .ecb).config = 0#2 :=
  ⟨witness_canTransform.1, witness_canTransform.2.1⟩

/-- The first block takes the IV. -/
theorem witness_cbcCompletes_first :
    CanTransform (opened .cbc) ∧ configCons (opened .cbc).config = 1#2 ∧
      ((opened .cbc).first = true → (opened .cbc).iv = (opened .cbc).iv) ∧
      ((opened .cbc).first = false → (opened .cbc).iv = (opened .cbc).prev) :=
  ⟨witness_canTransform.2.2.1, witness_canTransform.2.2.2.1, fun _ => rfl, fun h =>
    absurd (h.symm.trans witness_canTransform.2.2.2.2) (by decide)⟩

theorem witness_transformFrame :
    Completes (exec (.transformEnc 16#5) (opened .ecb)) ∧ Completes (exec (.transformDec 17#5) (opened .ecb)) ∧
      Completes (exec (.transformEnc 0#5) { latched with session := .opened }) := by
  refine ⟨?_, ⟨_, rfl⟩, ⟨_, rfl⟩⟩
  have h : (match exec (.transformEnc 16#5) (opened .ecb) with | .next _ => true | _ => false) = true := by
    decide +kernel
  split at h
  · next t ht => exact ⟨t, ht⟩
  · cases h

theorem witness_outOfContractStops :
    { latched with session := .opened }.session = .opened ∧ configNr { latched with session := .opened }.config = 0#4 ∧
      latched.session ≠ .opened ∧ 9 ≠ 7 ∧ 9 ≠ 8 ∧ 9 ≠ 10 ∧ 15 ≤ 15 := by decide

/-! ### Tables, layout and pipeline -/

/-- Indices of each case of the key expansion, at the edges of the schedule. -/
theorem witness_keyExpansionRecurrence :
    (nkOf .k256 ≤ 12 ∧ 12 < scheduleLen .k256 ∧ nkOf .k256 = 8 ∧ 12 % 8 = 4) ∧
      (nkOf .k256 ≤ 8 ∧ 8 % nkOf .k256 = 0 ∧ ¬(8 % 8 = 4)) ∧
      (nkOf .k128 ≤ 43 ∧ 43 < scheduleLen .k128 ∧ ¬(43 % nkOf .k128 = 0)) ∧
      (scheduleLen .k128 ≤ 44 ∧ 44 < 60) ∧ nkOf .k192 = 6 := by decide

theorem witness_roundConstantsArePowersOfTwo : (7 = 7 ∨ 7 = 8 ∨ 7 = 10) ∧ 6 < 7 ∧ ¬(7 < 7) := by decide

theorem witness_sBoxIsAlgebraic : gmul 0x02#8 0x8d#8 = 0x01#8 ∧ (0x02#8 : Byte) ≠ 0x00#8 := by decide

/-- A column of four equal bytes. -/
theorem witness_columnMixing :
    (stateOfFlat (Vector.replicate 16 0xc6#8))[0][3] = (stateOfFlat (Vector.replicate 16 0xc6#8))[1][3] ∧
      (stateOfFlat (Vector.replicate 16 0xc6#8))[1][3] = (stateOfFlat (Vector.replicate 16 0xc6#8))[2][3] ∧
      (stateOfFlat (Vector.replicate 16 0xc6#8))[2][3] = (stateOfFlat (Vector.replicate 16 0xc6#8))[3][3] := by decide

/-- The last round key of the word file, and an all-zero one. -/
theorem witness_addRoundKeyRule :
    14 ≤ 14 ∧ ∀ (c : Nat) (hc : c < 4), zeroWords[4 * 14 + c] = 0#32 := by
  refine ⟨by decide, fun c hc => ?_⟩
  simp [zeroWords]

theorem witness_sequencerRunsCipher : configNr (opened .ecb).config = 10#4 := by decide +kernel

/-! ### Chaining, and what may depend on what -/

/-- Two states that differ in more than the latches. -/
theorem witness_cbcStreamRoundTrip :
    keySizeOfBytes (16#6).toNat = some .k128 ∧ (opened .ecb).keyl = latched.keyl ∧ (opened .ecb).ivl = latched.ivl ∧
      opened .ecb ≠ latched := by decide +kernel

theorem witness_firstFlagIsPreloadedPrev :
    CanTransform (opened .cbc) ∧ configCons (opened .cbc).config = 1#2 ∧ (opened .cbc).first = true :=
  witness_canTransform.2.2

/-- Two states that differ in every hidden element. -/
theorem witness_hiddenStateIsNotRead :
    AgreeButHidden latched
      { latched with
        st := loadState latched.dinl
        cap := latched.dinl
        seq := .done
        rnd := 14#4
        ki := 59#6
        cmdl := 3#32
        keyl := wordsOfPort 0#256
        ivl := zeroBlock
        dinl := zeroBlock } :=
  ⟨rfl, rfl, rfl, rfl, rfl, rfl, rfl, rfl, rfl, rfl, rfl⟩

/-- Two hosts that offer the same word with different keys to cores that hold different IVs. -/
theorem witness_keyIsNotOutput :
    (offer 3#32).rst = false ∧ (offer 3#32).cmdValid = true ∧
      (offer 3#32).cmd = { offer 3#32 with keyIn := 1#256 }.cmd ∧
      Completes (transact (offer 3#32) { latched with session := .opened }) ∧
      Completes (transact { offer 3#32 with keyIn := 1#256 } { latched with session := .opened, iv := latched.ivl }) ∧
      opField (offer 3#32).cmd ≠ 2#4 ∧ opField (offer 0x00001002#32).cmd = 2#4 :=
  ⟨rfl, rfl, rfl, ⟨_, rfl⟩, ⟨_, rfl⟩, by decide, by decide⟩

/-- Two open ECB sessions with the same schedule and block that differ in DOUT and PREV. -/
theorem witness_ecbBlockIndependent :
    CanTransform (opened .ecb) ∧ { opened .ecb with dout := latched.dinl, prev := latched.dinl }.session = .opened ∧
      configCons (opened .ecb).config = 0#2 ∧
      { opened .ecb with dout := latched.dinl, prev := latched.dinl } ≠ opened .ecb :=
  ⟨witness_canTransform.1, by decide +kernel, witness_canTransform.2.1, by decide +kernel⟩

theorem witness_assemblerFillsPorts : [0xAB#8, 0xCD#8].length ≤ 2 ∧ 1 < 2 ∧ ([] : List Byte).length ≤ 16 := by decide

end Sys2Proof.Tests
end

section
/-! The parameters of the three key sizes (00_scope.md R7). -/

namespace Sys2Proof.Proofs

open Sys2Proof.Machine

/-- The 4 Nk bytes of a key size's key choose that size (47_commands.md R273). -/
@[simp] theorem keySizeOfBytes_four_mul_nkOf (ks : KeySize) : keySizeOfBytes (4 * nkOf ks) = some ks := by
  cases ks <;> rfl

/-- Only a length of 4 Nk bytes chooses a key size; every other length is rejected (47_commands.md R273). -/
theorem eq_four_mul_nkOf_of_keySizeOfBytes {n : Nat} {ks : KeySize} (h : keySizeOfBytes n = some ks) :
    n = 4 * nkOf ks := by
  unfold keySizeOfBytes at h
  split_ifs at h with h16 h24 h32
  · obtain rfl := Option.some.inj h
    exact h16
  · obtain rfl := Option.some.inj h
    exact h24
  · obtain rfl := Option.some.inj h
    exact h32

theorem keySizeOfBytes_eq_some_iff (n : Nat) (ks : KeySize) : keySizeOfBytes n = some ks ↔ n = 4 * nkOf ks := by
  constructor
  · exact eq_four_mul_nkOf_of_keySizeOfBytes
  · rintro rfl
    exact keySizeOfBytes_four_mul_nkOf ks

/-- Settles O1: the three rows of R7's table and the two formulas hold by the definitions of the parameters, and
`keySizeOfBytes_eq_some_iff` says which byte lengths have a key size. -/
theorem keySizeParameters : Obligations.KeySizeParameters := by
  unfold Obligations.KeySizeParameters
  exact ⟨rfl, rfl, rfl, fun _ => ⟨rfl, rfl⟩, keySizeOfBytes_eq_some_iff⟩

end Sys2Proof.Proofs
end

section
/-! The fields of CONFIG (10_state.md R32). -/

namespace Sys2Proof.Proofs

open Sys2Proof.Machine

section PackConfig
variable (ks : KeySize) (cons : BitVec 2)

@[simp] theorem configCons_packConfig : configCons (packConfig ks cons) = cons := by
  cases ks <;> decide +revert

theorem packConfig_reservedBits : (packConfig ks cons).extractLsb' 2 2 = 0#2 := by
  cases ks <;> decide +revert

@[simp] theorem configNk_packConfig : (configNk (packConfig ks cons)).toNat = nkOf ks := by
  cases ks <;> decide +revert

@[simp] theorem configNr_packConfig : (configNr (packConfig ks cons)).toNat = nrOf ks := by
  cases ks <;> decide +revert

@[simp] theorem configNrc_packConfig : (configNrc (packConfig ks cons)).toNat = nrcOf ks := by
  cases ks <;> decide +revert

end PackConfig

/-- Settles O2: the six values compute, and each field of a packed CONFIG reads back what was packed. -/
theorem configFieldsReadBack : Obligations.ConfigFieldsReadBack := by
  unfold Obligations.ConfigFieldsReadBack
  exact ⟨rfl, rfl, fun ks cons => ⟨configCons_packConfig ks cons, packConfig_reservedBits ks cons,
    configNk_packConfig ks cons, configNr_packConfig ks cons, configNrc_packConfig ks cons⟩⟩

end Sys2Proof.Proofs
end

section
/-! Reset (10_state.md R53; 70_reset_and_hazards.md R350, R354). -/

namespace Sys2Proof.Proofs

open Sys2Proof.Machine

/-- A reset edge is taken whatever the core is doing (70_reset_and_hazards.md R350, R352). -/
theorem clockEdge_reset {p : PortsIn} (c : Clocked) (h : p.rst = true) :
    clockEdge p c = .next ⟨resetEdge c.core, 0⟩ := by
  simp [clockEdge, h]

theorem transact_reset {p : PortsIn} (s : State) (h : p.rst = true) : transact p s = .next (resetEdge s) := by
  simp [transact, h]

/-- Settles O11: both kinds of step give `resetEdge`, whose fields are those of `State.reset`. -/
theorem resetEdgeGivesResetValues : Obligations.ResetEdgeGivesResetValues := by
  unfold Obligations.ResetEdgeGivesResetValues
  intro p c hrst
  refine ⟨resetEdge c.core, clockEdge_reset c hrst, transact_reset c.core hrst, ?_⟩
  simp [resetEdge_eq, State.reset, sessionCode, statusCode]

/-- The part of the invariant that speaks of the session and its context: R48 while OPEN, R49 otherwise. -/
def SessionOk (s : State) : Prop := (s.session = .opened → OpenOk s) ∧ (s.session ≠ .opened → Released s)

/-- The invariant is `SessionOk` in a state where no command is executing. -/
theorem inv_iff (s : State) : Inv s ↔ s.busy = false ∧ s.seq = .ready ∧ SessionOk s := Iff.rfl

theorem sessionOk_of_openOk {s : State} (hs : s.session = .opened) (h : OpenOk s) : SessionOk s :=
  ⟨fun _ => h, fun hne => absurd hs hne⟩

theorem sessionOk_of_released {s : State} (hs : s.session ≠ .opened) (h : Released s) : SessionOk s :=
  ⟨fun ho => absurd ho hs, fun _ => h⟩

/-- A reset leaves no session and nothing of one, whatever the host will drive. -/
theorem inv_resetEdge (s : State) : Inv (resetEdge s) :=
  (inv_iff _).mpr ⟨rfl, rfl, sessionOk_of_released nofun ⟨rfl, rfl, rfl, rfl, rfl, rfl, rfl⟩⟩

/-- Settles O16: a reset edge of any core with no coming inputs gives `State.reset`. -/
theorem resetMeetsInvariant : Obligations.ResetMeetsInvariant := by
  unfold Obligations.ResetMeetsInvariant
  exact ⟨inv_resetEdge State.reset, rfl⟩

end Sys2Proof.Proofs
end

section
/-! What each command can answer: the verdict of its checks, in the order of 60_exceptions.md R320, then the error or
the command's effect (47_commands.md R271–R280). -/

namespace Sys2Proof.Proofs

open Sys2Proof.Machine

/-- The checks of CREATE_SESSION: the key size, or the error to raise (60_exceptions.md R320). -/
def createVerdict (cons : Construction) (klen : BitVec 6) (ivlen : BitVec 5) : Except Status KeySize :=
  match keySizeOfBytes klen.toNat with
  | none => .error .invalidKeyLength
  | some ks =>
    if cons = .gcm then .error .unsupportedConstruction
    else if cons = .cbc ∧ ivlen.toNat ≠ 16 then .error .invalidIvLength
    else .ok ks

/-- The checks of TRANSFORM, which look at DLEN and SESSION only: the error to raise, if any (60_exceptions.md
R320). -/
def transformVerdict (dlen : BitVec 5) (b : Session) : Except Status Unit :=
  if ¬ DlenOk dlen then .error .illegalCommand
  else if b = .idle then .error .noSession
  else if b = .failed then .error .sessionAborted
  else if dlen.toNat < 16 then .error .incompleteFinalBlock
  else .ok ()

section Create
variable {cons : Construction} {klen : BitVec 6} {ivlen : BitVec 5} {ks : KeySize} {e : Status} {s t : State}

theorem createChecked_of_error (h : createVerdict cons klen ivlen = .error e) :
    createChecked cons klen ivlen s = .ok (raiseError e s) := by
  cases hk : keySizeOfBytes klen.toNat with
  | none =>
    simp only [createVerdict, hk] at h
    simp only [createChecked, hk]
    cases h
    rfl
  | some ks =>
    simp only [createVerdict, hk] at h
    simp only [createChecked, hk]
    split_ifs at h ⊢ <;> cases h <;> rfl

theorem createChecked_of_ok (h : createVerdict cons klen ivlen = .ok ks) :
    createChecked cons klen ivlen s = openSession cons ks s := by
  cases hk : keySizeOfBytes klen.toNat with
  | none =>
    simp only [createVerdict, hk] at h
    cases h
  | some ks' =>
    simp only [createVerdict, hk] at h
    simp only [createChecked, hk]
    split_ifs at h ⊢
    cases h
    rfl

/-- GCM passes no check (47_commands.md R274). -/
theorem cons_ne_gcm_of_createVerdict (h : createVerdict cons klen ivlen = .ok ks) : cons ≠ .gcm := by
  rintro rfl
  unfold createVerdict at h
  split at h <;> simp at h

/-- An error of CREATE_SESSION comes after its release, so it only writes STATUS (60_exceptions.md R312–R314). -/
theorem raiseError_release_of_createVerdict (h : createVerdict cons klen ivlen = .error e) :
    raiseError e (release s) = { release s with status := e } := by
  unfold createVerdict at h
  split at h
  · cases h; rfl
  · split_ifs at h <;> cases h <;> rfl

/-- The chaining context of a new session, field by field (47_commands.md R271). -/
theorem setupChain_eq (cbc : Bool) (s : State) :
    setupChain cbc s =
      { s with iv := if cbc then s.ivl else zeroBlock, prev := zeroBlock, first := cbc } := by
  cases cbc <;> rfl

/-- The state of a session just opened with the constants `rc` and the expansion `e` (47_commands.md R271). -/
def openedState (cons : Construction) (ks : KeySize) (rc : Vector Byte 10) (e : Expander) (s : State) : State :=
  { s with
    config := packConfig ks (constructionBits cons)
    rc := rc
    w := e.w
    ki := e.ki
    iv := if cons == .cbc then s.ivl else zeroBlock
    prev := zeroBlock
    first := cons == .cbc
    seq := .ready
    session := .opened
    status := .ok }

/-- The opening of a session: the constants, then the schedule, then the fields written. -/
theorem openSession_eq (cons : Construction) (ks : KeySize) (s : State) :
    openSession cons ks s = (roundConstants (nrcOf ks) s.rc >>= fun rc =>
      keyExpansion ks s.keyl rc s.w >>= fun e => .ok (openedState cons ks rc e s)) := by
  simp only [openSession, setupChain_eq]
  rfl

/-- All the opening of a session can answer. -/
theorem openSession_eq_ok (h : openSession cons ks s = .ok t) :
    ∃ rc e, roundConstants (nrcOf ks) s.rc = .ok rc ∧ keyExpansion ks s.keyl rc s.w = .ok e ∧
      t = openedState cons ks rc e s := by
  rw [openSession_eq] at h
  obtain ⟨rc, hrc, h⟩ := bind_eq_ok h
  obtain ⟨e, he, h⟩ := bind_eq_ok h
  exact ⟨rc, e, hrc, he, (Except.ok.inj h).symm⟩

/-- All CREATE_SESSION can answer: an error that leaves the released state, or an opened session. -/
theorem execCreateSession_eq_next (h : execCreateSession cons klen ivlen s = .next t) :
    (∃ e, createVerdict cons klen ivlen = .error e ∧ t = { release s with status := e }) ∨
    (∃ ks, createVerdict cons klen ivlen = .ok ks ∧ openSession cons ks (release s) = .ok t) := by
  have h := outcomeOf_eq_next.mp h
  cases hv : createVerdict cons klen ivlen with
  | error e =>
    rw [createChecked_of_error hv, raiseError_release_of_createVerdict hv] at h
    exact .inl ⟨e, rfl, (Except.ok.inj h).symm⟩
  | ok ks =>
    rw [createChecked_of_ok hv] at h
    exact .inr ⟨ks, rfl, h⟩

end Create

section Transform
variable {m : Mode} {dlen : BitVec 5} {e : Status} {s t : State}

theorem transform_of_error (h : transformVerdict dlen s.session = .error e) :
    transform m dlen s = .ok (raiseError e s) := by
  unfold transformVerdict at h
  unfold transform
  split_ifs at h ⊢ <;> cases h <;> rfl

theorem transform_of_ok (h : transformVerdict dlen s.session = .ok ()) :
    transform m dlen s = transformBlock m s.dinl s >>= fun r => .ok (writeResult r) := by
  unfold transformVerdict at h
  unfold transform
  split_ifs at h ⊢
  rfl

/-- The checks pass only for 16 bytes on an open session. -/
theorem transformVerdict_eq_ok {b : Session} (h : transformVerdict dlen b = .ok ()) :
    b = .opened ∧ dlen = 16#5 := by
  unfold transformVerdict at h
  split_ifs at h with hle hi hf hlt
  refine ⟨by cases b <;> simp_all, BitVec.eq_of_toNat_eq ?_⟩
  exact Nat.le_antisymm hle (not_lt.mp hlt)

/-- The errors a TRANSFORM can raise (60_exceptions.md R320). -/
theorem transformVerdict_eq_error {b : Session} (h : transformVerdict dlen b = .error e) :
    e = .illegalCommand ∨ e = .noSession ∨ e = .sessionAborted ∨ e = .incompleteFinalBlock := by
  unfold transformVerdict at h
  split_ifs at h <;> cases h <;> simp

/-- All a TRANSFORM can answer: an error, or the block function's state with the result written. -/
theorem transform_eq_ok (h : transform m dlen s = .ok t) :
    (∃ e, transformVerdict dlen s.session = .error e ∧ t = raiseError e s) ∨
    (transformVerdict dlen s.session = .ok () ∧ ∃ r, transformBlock m s.dinl s = .ok r ∧ t = writeResult r) := by
  cases hv : transformVerdict dlen s.session with
  | error e =>
    rw [transform_of_error hv] at h
    exact .inl ⟨e, rfl, (Except.ok.inj h).symm⟩
  | ok u =>
    rw [transform_of_ok hv] at h
    obtain ⟨r, hr, h⟩ := bind_eq_ok h
    exact .inr ⟨rfl, r, hr, (Except.ok.inj h).symm⟩

/-- The block function leaves the chaining context alone in ECB, and clears FIRST in CBC (46_chaining.md R253,
R255). -/
theorem transformBlock_chain {blk : Block} {r : State × Block} (h : transformBlock m blk s = .ok r) :
    (configCons s.config = 0#2 → r.1.prev = s.prev ∧ r.1.first = s.first) ∧
      (configCons s.config ≠ 0#2 → r.1.first = false) := by
  unfold transformBlock at h
  split at h
  · next hc =>
    obtain ⟨-, -, p, -, rfl⟩ := runPipeline_eq_ok h
    exact ⟨fun _ => ⟨rfl, rfl⟩, fun hne => absurd hc hne⟩
  · next hc =>
    refine ⟨fun h0 => absurd h0 hc, fun _ => ?_⟩
    cases m with
    | enc | dec =>
      obtain ⟨y, -, h⟩ := bind_eq_ok h
      cases Except.ok.inj h
      rfl

end Transform

/-- CLOSE_SESSION with no session is an error (47_commands.md R280). -/
theorem execCloseSession_idle {s : State} (h : s.session = .idle) :
    execCloseSession s = .next (raiseError .noSession s) := by
  simp [execCloseSession, h]

/-- CLOSE_SESSION releases an open or failed session (47_commands.md R280). -/
theorem execCloseSession_session {s : State} (h : s.session ≠ .idle) :
    execCloseSession s = .next { release s with status := .ok } := by
  simp [execCloseSession, h]

end Sys2Proof.Proofs
end

section
/-! The invariant of the states between commands (10_state.md R48, R49). -/

namespace Sys2Proof.Proofs

open Sys2Proof.Machine

section Released
variable (s : State)

/-- After Release nothing of a session is left (60_exceptions.md R318). -/
theorem released_release : Released (release s) := ⟨rfl, rfl, rfl, rfl, rfl, rfl, rfl⟩

/-- STATUS is no part of the session's context. -/
theorem sessionOk_release (e : Status) : SessionOk { release s with status := e } :=
  sessionOk_of_released nofun (released_release s)

/-- Acceptance touches nothing the invariant speaks of but BUSY. -/
theorem sessionOk_accept (p : PortsIn) : SessionOk (accept p s) ↔ SessionOk s := Iff.rfl

theorem sessionOk_complete : SessionOk (complete s) ↔ SessionOk s := Iff.rfl

end Released

section Commands
variable {cons : Construction} {klen : BitVec 6} {ivlen : BitVec 5} {m : Mode} {dlen : BitVec 5} {s t : State}

/-- A session opened on released state holds the schedule of the key in the latches and the chaining context of its
construction (10_state.md R48). -/
theorem openOk_openedState {ks : KeySize} {rc : Vector Byte 10} {e : Expander} (hc : cons ≠ .gcm)
    (hrc : roundConstants (nrcOf ks) zeroConstants = .ok rc) (he : keyExpansion ks s.keyl rc zeroWords = .ok e) :
    OpenOk (openedState cons ks rc e s) := by
  refine ⟨ks, cons, s.keyl, hc, rfl, ⟨hrc, e, he, rfl⟩, ?_⟩
  cases cons with
  | ecb => exact ⟨fun _ => ⟨rfl, rfl, rfl⟩, nofun⟩
  | cbc => exact ⟨nofun, fun _ _ => rfl⟩
  | gcm => exact absurd rfl hc

/-- CREATE_SESSION releases what was there and leaves an open session or none. -/
theorem create_establishes_sessionOk (hseq : s.seq = .ready) (h : execCreateSession cons klen ivlen s = .next t) :
    t.seq = .ready ∧ SessionOk t := by
  obtain ⟨e, -, rfl⟩ | ⟨ks, hv, ht⟩ := execCreateSession_eq_next h
  · exact ⟨hseq, sessionOk_release s e⟩
  · obtain ⟨rc, e, hrc, he, rfl⟩ := openSession_eq_ok ht
    exact ⟨rfl, sessionOk_of_openOk rfl (openOk_openedState (cons_ne_gcm_of_createVerdict hv) hrc he)⟩

/-- An error of TRANSFORM or CLOSE_SESSION keeps the session as it was, but for a partial block, which leaves nothing of
it (60_exceptions.md R315, R316). -/
theorem raiseError_keeps_sessionOk {e : Status}
    (he : e = .illegalCommand ∨ e = .noSession ∨ e = .sessionAborted ∨ e = .incompleteFinalBlock)
    (hok : SessionOk s) : SessionOk (raiseError e s) := by
  obtain rfl | rfl | rfl | rfl := he
  · exact hok
  · exact hok
  · exact hok
  · exact sessionOk_of_released nofun (released_release s)

/-- A block keeps CONFIG, W, RC and IV, and PREV and FIRST go on as R48 says for the construction CONFIG names. -/
theorem openOk_writeResult {blk : Block} {r : State × Block} (hok : OpenOk s)
    (h : transformBlock m blk s = .ok r) : OpenOk (writeResult r) := by
  obtain ⟨ks, cons, key, hc, hcfg, hsched, hecb, -⟩ := hok
  have hframe := transformBlock_frame h
  obtain ⟨hbypass, hfeedback⟩ := transformBlock_chain h
  rw [hcfg, configCons_packConfig] at hbypass hfeedback
  refine ⟨ks, cons, key, hc, ?_, ?_, ?_⟩
  · rw [writeResult_eq, hframe]; exact hcfg
  · rw [writeResult_eq, hframe]; exact hsched
  · cases cons with
    | ecb =>
      obtain ⟨hprev, hfirst⟩ := hbypass rfl
      obtain ⟨hiv0, hprev0, hfirst0⟩ := hecb rfl
      have hiv : r.1.iv = s.iv := by rw [hframe]
      exact ⟨fun _ => ⟨hiv.trans hiv0, hprev.trans hprev0, hfirst.trans hfirst0⟩, nofun⟩
    | cbc => exact ⟨nofun, fun _ hfirst => absurd ((hfeedback (by decide)).symm.trans hfirst) (by decide)⟩
    | gcm => exact absurd rfl hc

theorem transform_keeps_sessionOk (hseq : s.seq = .ready) (hok : SessionOk s) (h : transform m dlen s = .ok t) :
    t.seq = .ready ∧ SessionOk t := by
  obtain ⟨e, hv, rfl⟩ | ⟨hv, r, hr, rfl⟩ := transform_eq_ok h
  · exact ⟨by simpa using hseq, raiseError_keeps_sessionOk (transformVerdict_eq_error hv) hok⟩
  · obtain ⟨hs, -⟩ := transformVerdict_eq_ok hv
    obtain ⟨hopen, -⟩ := hok
    have hsession : r.1.session = s.session := by rw [transformBlock_frame hr]
    exact ⟨rfl, sessionOk_of_openOk (hsession.trans hs) (openOk_writeResult (hopen hs) hr)⟩

theorem close_keeps_sessionOk (hseq : s.seq = .ready) (hok : SessionOk s) (h : execCloseSession s = .next t) :
    t.seq = .ready ∧ SessionOk t := by
  by_cases hs : s.session = .idle
  · rw [execCloseSession_idle hs] at h
    cases h
    exact ⟨hseq, hok⟩
  · rw [execCloseSession_session hs] at h
    cases h
    exact ⟨hseq, sessionOk_release s .ok⟩

/-- Every instruction keeps the session part of the invariant and leaves the sequencer READY. -/
theorem exec_keeps_sessionOk {i : Instr} (hseq : s.seq = .ready) (hok : SessionOk s) (h : exec i s = .next t) :
    t.seq = .ready ∧ SessionOk t := by
  cases i with
  | createSession cons klen ivlen => exact create_establishes_sessionOk hseq h
  | transformEnc dlen | transformDec dlen => exact transform_keeps_sessionOk hseq hok (outcomeOf_eq_next.mp h)
  | closeSession => exact close_keeps_sessionOk hseq hok h

/-- The run of the latched command ends with BUSY cleared and the invariant met, whatever BUSY was before. -/
theorem inv_of_executeLatched (hseq : s.seq = .ready) (hok : SessionOk s) (h : executeLatched s = .next t) :
    Inv t := by
  obtain ⟨-, -, rfl⟩ | ⟨i, u, -, hu, rfl⟩ := executeLatched_eq_next.mp h
  · exact ⟨rfl, hseq, hok⟩
  · obtain ⟨hseq', hok'⟩ := exec_keeps_sessionOk hseq hok hu
    exact ⟨rfl, hseq', hok'⟩

theorem transact_keeps_inv {p : PortsIn} (hinv : Inv s) (h : transact p s = .next t) : Inv t := by
  obtain ⟨hbusy, hseq, hok⟩ := (inv_iff s).mp hinv
  obtain ⟨-, rfl⟩ | ⟨-, -, hrun⟩ | ⟨-, -, rfl⟩ := transact_eq_next.mp h
  · exact inv_resetEdge s
  · exact inv_of_executeLatched (s := accept p s) hseq hok hrun
  · exact hinv

end Commands

/-- Settles O17: a step between commands is a transaction, and each of its three kinds keeps the invariant. -/
theorem stepKeepsInvariant : Obligations.StepKeepsInvariant := by
  unfold Obligations.StepKeepsInvariant
  intro s t hinv h
  rw [step_idle s hinv.1] at h
  have htaken : Inv (takeInput s).2 := by
    rw [takeInput_state]
    exact hinv
  exact transact_keeps_inv htaken h

end Sys2Proof.Proofs
end

section
/-! What reaches the host: DOUT, STATUS and SESSION after a command (10_state.md R42, R51; 60_exceptions.md R330). -/

namespace Sys2Proof.Proofs

open Sys2Proof.Machine

section Outputs
variable {cons : Construction} {klen : BitVec 6} {ivlen : BitVec 5} {m : Mode} {dlen : BitVec 5} {s s' t t' : State}

theorem create_keeps_dout (h : execCreateSession cons klen ivlen s = .next t) : t.dout = s.dout := by
  obtain ⟨e, -, rfl⟩ | ⟨ks, -, ht⟩ := execCreateSession_eq_next h
  · rfl
  · obtain ⟨rc, e, -, -, rfl⟩ := openSession_eq_ok ht
    rfl

theorem close_keeps_dout (h : execCloseSession s = .next t) : t.dout = s.dout := by
  by_cases hs : s.session = .idle
  · rw [execCloseSession_idle hs] at h
    cases h
    rfl
  · rw [execCloseSession_session hs] at h
    cases h
    rfl

/-- A TRANSFORM writes DOUT only when its checks pass, and then STATUS is OK. -/
theorem transform_dout (h : transform m dlen s = .ok t) :
    t.dout = s.dout ∨ (t.status = .ok ∧ s.session = .opened ∧ dlen = 16#5) := by
  obtain ⟨e, -, rfl⟩ | ⟨hv, r, -, rfl⟩ := transform_eq_ok h
  · exact .inl (raiseError_dout s e)
  · exact .inr ⟨rfl, transformVerdict_eq_ok hv⟩

/-- The next STATUS and SESSION of CREATE_SESSION depend on its fields alone, through the verdict of its checks. -/
theorem create_status_session (h : execCreateSession cons klen ivlen s = .next t)
    (h' : execCreateSession cons klen ivlen s' = .next t') : t.status = t'.status ∧ t.session = t'.session := by
  obtain ⟨e, hv, rfl⟩ | ⟨ks, hv, ht⟩ := execCreateSession_eq_next h <;>
    obtain ⟨e', hv', rfl⟩ | ⟨ks', hv', ht'⟩ := execCreateSession_eq_next h'
  · cases hv.symm.trans hv'
    exact ⟨rfl, rfl⟩
  · cases hv.symm.trans hv'
  · cases hv.symm.trans hv'
  · obtain ⟨rc, e, -, -, rfl⟩ := openSession_eq_ok ht
    obtain ⟨rc', e', -, -, rfl⟩ := openSession_eq_ok ht'
    exact ⟨rfl, rfl⟩

/-- What an error leaves in SESSION depends on its code and SESSION alone (60_exceptions.md R311–R316). -/
theorem raiseError_session_congr (e : Status) (hs : s.session = s'.session) :
    (raiseError e s).session = (raiseError e s').session := by
  cases e with
  | invalidKeyLength | unsupportedConstruction | invalidIvLength | incompleteFinalBlock => rfl
  | ok | illegalKeyCharacter | allocationFailure | noSession | sessionAborted | illegalCommand => exact hs

/-- The next STATUS and SESSION of a TRANSFORM depend on DLEN and SESSION alone, through the verdict of its checks. -/
theorem transform_status_session (hs : s.session = s'.session) (h : transform m dlen s = .ok t)
    (h' : transform m dlen s' = .ok t') : t.status = t'.status ∧ t.session = t'.session := by
  obtain ⟨e, hv, rfl⟩ | ⟨hv, r, hr, rfl⟩ := transform_eq_ok h <;>
    obtain ⟨e', hv', rfl⟩ | ⟨hv', r', hr', rfl⟩ := transform_eq_ok h' <;> rw [← hs] at hv'
  · cases hv.symm.trans hv'
    exact ⟨rfl, raiseError_session_congr e hs⟩
  · cases hv.symm.trans hv'
  · cases hv.symm.trans hv'
  · refine ⟨rfl, ?_⟩
    show r.1.session = r'.1.session
    rw [transformBlock_frame hr, transformBlock_frame hr']
    exact hs

theorem close_status_session (hs : s.session = s'.session) (h : execCloseSession s = .next t)
    (h' : execCloseSession s' = .next t') : t.status = t'.status ∧ t.session = t'.session := by
  by_cases hi : s.session = .idle
  · rw [execCloseSession_idle hi] at h
    rw [execCloseSession_idle (hs.symm.trans hi)] at h'
    cases h
    cases h'
    exact ⟨rfl, hs⟩
  · rw [execCloseSession_session hi] at h
    rw [execCloseSession_session (hs ▸ hi)] at h'
    cases h
    cases h'
    exact ⟨rfl, rfl⟩

/-- The next STATUS and SESSION of an instruction depend on the instruction and SESSION alone. -/
theorem exec_status_session {i : Instr} (hs : s.session = s'.session) (h : exec i s = .next t)
    (h' : exec i s' = .next t') : t.status = t'.status ∧ t.session = t'.session := by
  cases i with
  | createSession cons klen ivlen => exact create_status_session h h'
  | transformEnc dlen | transformDec dlen =>
    exact transform_status_session hs (outcomeOf_eq_next.mp h) (outcomeOf_eq_next.mp h')
  | closeSession => exact close_status_session hs h h'

end Outputs

/-- Settles O21: no session command touches DOUT, and a TRANSFORM that raises an error does not either. -/
theorem doutOnlyFromTransform : Obligations.DoutOnlyFromTransform := by
  unfold Obligations.DoutOnlyFromTransform
  intro i s t h
  cases i with
  | createSession cons klen ivlen => exact .inl (create_keeps_dout h)
  | transformEnc dlen | transformDec dlen =>
    obtain hkeep | ⟨hst, hs, rfl⟩ := transform_dout (outcomeOf_eq_next.mp h)
    · exact .inl hkeep
    · exact .inr ⟨hst, hs, by simp⟩
  | closeSession => exact .inl (close_keeps_dout h)

section Response
variable {s s' t t' : State}

theorem decodeC_eq_ok {cmd : BitVec 32} {i : Instr} (h : decodeC cmd = .ok i) :
    ∃ cons klen ivlen, i = .createSession cons klen ivlen := by
  unfold decodeC at h
  split at h
  · cases h
  · split at h
    · cases h
    · next c _ => exact ⟨c, _, _, (Except.ok.inj h).symm⟩

theorem decodeZ_eq_ok {cmd : BitVec 32} {i : Instr} (h : decodeZ cmd = .ok i) : i = .closeSession := by
  unfold decodeZ at h
  split at h
  · cases h
  · exact (Except.ok.inj h).symm

/-- A word whose opcode is not TRANSFORM's spells a session command or none (30_encoding.md R113). -/
theorem decode_eq_ok_of_opField_ne {cmd : BitVec 32} {i : Instr} (hop : opField cmd ≠ 2#4)
    (h : decode cmd = .ok i) :
    (∃ cons klen ivlen, i = .createSession cons klen ivlen) ∨ i = .closeSession := by
  unfold decode at h
  rw [if_neg hop] at h
  split at h
  · exact .inl (decodeC_eq_ok h)
  · split at h
    · exact .inr (decodeZ_eq_ok h)
    · cases h

/-- An accepted command runs from its latches (30_encoding.md R103). -/
theorem transact_command {p : PortsIn} (s : State) (hrst : p.rst = false) (hvalid : p.cmdValid = true) :
    transact p s = executeLatched (accept p s) := by
  simp [transact, hrst, hvalid]

/-- A command ends with its response (30_encoding.md R104). -/
theorem executeLatched_response (h : executeLatched s = .next t) : t.busy = false ∧ t.rspValid = true := by
  obtain ⟨-, -, rfl⟩ | ⟨-, u, -, -, rfl⟩ := executeLatched_eq_next.mp h
  · exact ⟨rfl, rfl⟩
  · exact ⟨rfl, rfl⟩

/-- The next STATUS and SESSION depend on the command word and SESSION alone (10_state.md R51). -/
theorem executeLatched_status_session (hcmd : s.cmdl = s'.cmdl) (hs : s.session = s'.session)
    (h : executeLatched s = .next t) (h' : executeLatched s' = .next t') :
    t.status = t'.status ∧ t.session = t'.session := by
  obtain ⟨r, hd, rfl⟩ | ⟨i, u, hd, hu, rfl⟩ := executeLatched_eq_next.mp h <;>
    obtain ⟨r', hd', rfl⟩ | ⟨i', u', hd', hu', rfl⟩ := executeLatched_eq_next.mp h' <;> rw [← hcmd] at hd'
  · exact ⟨rfl, hs⟩
  · cases hd.symm.trans hd'
  · cases hd.symm.trans hd'
  · cases hd.symm.trans hd'
    exact exec_status_session (t := u) (t' := u') hs hu hu'

/-- A word whose opcode is not TRANSFORM's leaves DOUT as it was (10_state.md R42). -/
theorem executeLatched_keeps_dout (hop : opField s.cmdl ≠ 2#4) (h : executeLatched s = .next t) :
    t.dout = s.dout := by
  obtain ⟨-, -, rfl⟩ | ⟨i, u, hd, hu, rfl⟩ := executeLatched_eq_next.mp h
  · rfl
  · obtain ⟨cons, klen, ivlen, rfl⟩ | rfl := decode_eq_ok_of_opField_ne hop hd
    · exact create_keeps_dout (t := u) hu
    · exact close_keeps_dout (t := u) hu

end Response

/-- Settles O58: `cmd_ready` and `rsp_valid` are those of a response, `rsp_status` and `rsp_state` depend on the word and
SESSION, and `dout` is untouched unless the opcode is TRANSFORM's. -/
theorem keyIsNotOutput : Obligations.KeyIsNotOutput := by
  unfold Obligations.KeyIsNotOutput
  intro p p' s s' t t' hrst hrst' hvalid hvalid' hcmd hs hdout h h'
  rw [transact_command s hrst hvalid] at h
  rw [transact_command s' hrst' hvalid'] at h'
  obtain ⟨hbusy, hrsp⟩ := executeLatched_response h
  obtain ⟨hbusy', hrsp'⟩ := executeLatched_response h'
  obtain ⟨hstatus, hsession⟩ := executeLatched_status_session (s := accept p s) (s' := accept p' s') hcmd hs h h'
  refine ⟨by simp [outputsOf, hbusy, hbusy', hrsp, hrsp', hstatus, hsession], fun hop => ?_⟩
  have ht : t.dout = s.dout := executeLatched_keeps_dout (s := accept p s) hop h
  have ht' : t'.dout = s'.dout := executeLatched_keeps_dout (s := accept p' s') (by rwa [accept_cmdl, ← hcmd]) h'
  simp [outputsOf, hbusy, hbusy', hrsp, hrsp', hstatus, hsession, ht, ht', hdout]

end Sys2Proof.Proofs
end

section
/-! The hidden state between commands is not read (10_state.md R50): two runs from states that agree on the rest, with
the same operands in the latches, stay in agreement. -/

namespace Sys2Proof.Proofs

open Sys2Proof.Machine

/-- Two attempts that stop alike, or answer results that `R` relates. -/
inductive AttemptsAgree {α : Type} (R : α → α → Prop) : Attempt α → Attempt α → Prop where
  | ok {a b : α} (h : R a b) : AttemptsAgree R (.ok a) (.ok b)
  | error (e : Stop) : AttemptsAgree R (.error e) (.error e)

/-- Two outcomes that stop alike, or answer states that agree but for the hidden state. -/
inductive OutcomesAgree : Host.Outcome State Fault Refusal → Host.Outcome State Fault Refusal → Prop where
  | next {t t' : State} (h : AgreeButHidden t t') : OutcomesAgree (.next t) (.next t')
  | fault (f : Fault) : OutcomesAgree (.fault f) (.fault f)
  | refused (r : Refusal) : OutcomesAgree (.refused r) (.refused r)

section Attempts
variable {α β : Type} {R : α → α → Prop} {Q : β → β → Prop}

/-- Attempts that agree, continued by what respects the relation, agree. -/
theorem attemptsAgree_bind {a b : Attempt α} {f g : α → Attempt β} (hab : AttemptsAgree R a b)
    (hfg : ∀ x y, R x y → AttemptsAgree Q (f x) (g y)) : AttemptsAgree Q (a >>= f) (b >>= g) := by
  cases hab with
  | ok h => exact hfg _ _ h
  | error e => exact .error e

/-- One attempt, continued in two ways that agree on each result it can give. -/
theorem attemptsAgree_bind_same (a : Attempt α) {f g : α → Attempt β} (hfg : ∀ x, AttemptsAgree Q (f x) (g x)) :
    AttemptsAgree Q (a >>= f) (a >>= g) := by
  cases a with
  | ok x => exact hfg x
  | error e => exact .error e

theorem outcomesAgree_outcomeOf {a b : Attempt State} (h : AttemptsAgree AgreeButHidden a b) :
    OutcomesAgree (outcomeOf a) (outcomeOf b) := by
  cases h with
  | ok h => exact .next h
  | error e =>
    cases e with
    | fault f => exact .fault f
    | refused r => exact .refused r

end Attempts

/-- The results of a block function agree: the states but for the hidden state, and the block. -/
def BlockResultsAgree (r r' : State × Block) : Prop := AgreeButHidden r.1 r'.1 ∧ r.2 = r'.2

section Agreement
variable {s s' : State}

theorem agreeButHidden_release (h : AgreeButHidden s s') : AgreeButHidden (release s) (release s') := by
  obtain ⟨-, -, hstatus, hbusy, -, -, -, -, -, hdout, hrsp⟩ := h
  exact ⟨rfl, rfl, hstatus, hbusy, rfl, rfl, rfl, rfl, rfl, hdout, hrsp⟩

theorem agreeButHidden_status (e : Status) (h : AgreeButHidden s s') :
    AgreeButHidden { s with status := e } { s' with status := e } := by
  obtain ⟨hsession, hconfig, -, hrest⟩ := h
  exact ⟨hsession, hconfig, rfl, hrest⟩

theorem agreeButHidden_session (b : Session) (h : AgreeButHidden s s') :
    AgreeButHidden { s with session := b } { s' with session := b } := by
  obtain ⟨-, hrest⟩ := h
  exact ⟨rfl, hrest⟩

theorem agreeButHidden_errorEffect (e : Status) (h : AgreeButHidden s s') :
    AgreeButHidden (errorEffect e s) (errorEffect e s') := by
  cases e with
  | invalidKeyLength | unsupportedConstruction | invalidIvLength => exact agreeButHidden_session .idle h
  | incompleteFinalBlock => exact agreeButHidden_session .failed (agreeButHidden_release h)
  | ok | illegalKeyCharacter | allocationFailure | noSession | sessionAborted | illegalCommand => exact h

theorem agreeButHidden_raiseError (e : Status) (h : AgreeButHidden s s') :
    AgreeButHidden (raiseError e s) (raiseError e s') :=
  agreeButHidden_status e (agreeButHidden_errorEffect e h)

theorem agreeButHidden_complete (h : AgreeButHidden s s') : AgreeButHidden (complete s) (complete s') := by
  obtain ⟨hsession, hconfig, hstatus, -, hw, hrc, hiv, hprev, hfirst, hdout, -⟩ := h
  exact ⟨hsession, hconfig, hstatus, rfl, hw, hrc, hiv, hprev, hfirst, hdout, rfl⟩

theorem agreeButHidden_accept (p : PortsIn) (h : AgreeButHidden s s') :
    AgreeButHidden (accept p s) (accept p s') := by
  obtain ⟨hsession, hconfig, hstatus, -, hw, hrc, hiv, hprev, hfirst, hdout, -⟩ := h
  exact ⟨hsession, hconfig, hstatus, rfl, hw, hrc, hiv, hprev, hfirst, hdout, rfl⟩

theorem agreeButHidden_quiet (h : AgreeButHidden s s') : AgreeButHidden (quiet s) (quiet s') := by
  obtain ⟨hsession, hconfig, hstatus, hbusy, hw, hrc, hiv, hprev, hfirst, hdout, -⟩ := h
  exact ⟨hsession, hconfig, hstatus, hbusy, hw, hrc, hiv, hprev, hfirst, hdout, rfl⟩

/-- The chaining context is rewritten from the block alone. -/
theorem agreeButHidden_advanceChain (b : Block) (h : AgreeButHidden s s') :
    AgreeButHidden (advanceChain b s) (advanceChain b s') := by
  obtain ⟨hsession, hconfig, hstatus, hbusy, hw, hrc, hiv, -, -, hdout, hrsp⟩ := h
  exact ⟨hsession, hconfig, hstatus, hbusy, hw, hrc, hiv, rfl, rfl, hdout, hrsp⟩

theorem agreeButHidden_writeResult {r r' : State × Block} (h : BlockResultsAgree r r') :
    AgreeButHidden (writeResult r) (writeResult r') := by
  obtain ⟨⟨hsession, hconfig, -, hbusy, hw, hrc, hiv, hprev, hfirst, -, hrsp⟩, hblock⟩ := h
  exact ⟨hsession, hconfig, rfl, hbusy, hw, hrc, hiv, hprev, hfirst, hblock, hrsp⟩

theorem agreeButHidden_openedState (cons : Construction) (ks : KeySize) (rc : Vector Byte 10) (e : Expander)
    (hiv : s.ivl = s'.ivl) (h : AgreeButHidden s s') :
    AgreeButHidden (openedState cons ks rc e s) (openedState cons ks rc e s') := by
  obtain ⟨-, -, -, hbusy, -, -, -, -, -, hdout, hrsp⟩ := h
  exact ⟨rfl, rfl, rfl, hbusy, rfl, rfl, by rw [openedState, hiv]; rfl, rfl, rfl, hdout, hrsp⟩

theorem chainValue_congr (h : AgreeButHidden s s') : chainValue s = chainValue s' := by
  obtain ⟨-, -, -, -, -, -, hiv, hprev, hfirst, -⟩ := h
  rw [chainValue, chainValue, hiv, hprev, hfirst]

/-- The pipeline reads SESSION, CONFIG and W, and writes only hidden state (45_round_pipeline.md R220). -/
theorem runPipeline_agree (m : Mode) (blk : Block) (h : AgreeButHidden s s') :
    AttemptsAgree BlockResultsAgree (runPipeline m blk s) (runPipeline m blk s') := by
  obtain ⟨hsession, hconfig, hstatus, hbusy, hw, hrest⟩ := h
  unfold runPipeline
  rw [hsession, hconfig, hw]
  split
  · exact .error _
  · split
    · exact attemptsAgree_bind_same _ fun p => .ok ⟨⟨rfl, rfl, hstatus, hbusy, rfl, hrest⟩, rfl⟩
    · exact .error _

/-- CBC decrypt writes PREV from CAP, which holds the incoming block (46_chaining.md R253, R254). -/
theorem cbcDecrypt_eq (blk : Block) (s : State) :
    cbcDecrypt blk s = (runPipeline .dec blk { s with cap := blk } >>= fun y =>
      .ok (advanceChain blk y.1, xorBlock y.2 (chainValue s))) := by
  unfold cbcDecrypt
  cases hy : runPipeline .dec blk { s with cap := blk } with
  | error e => simp only [hy]; rfl
  | ok y =>
    obtain ⟨-, -, p, -, rfl⟩ := runPipeline_eq_ok hy
    simp only [hy]
    rfl

theorem cbcEncrypt_agree (blk : Block) (h : AgreeButHidden s s') :
    AttemptsAgree BlockResultsAgree (cbcEncrypt blk s) (cbcEncrypt blk s') := by
  unfold cbcEncrypt
  rw [chainValue_congr h]
  refine attemptsAgree_bind (runPipeline_agree .enc _ h) fun ⟨u, out⟩ ⟨u', out'⟩ ⟨hu, hout⟩ => ?_
  cases hout
  exact .ok ⟨agreeButHidden_advanceChain out hu, rfl⟩

/-- CAP is written before it is read, so the block captured earlier has no part (46_chaining.md R254). -/
theorem cbcDecrypt_agree (blk : Block) (h : AgreeButHidden s s') :
    AttemptsAgree BlockResultsAgree (cbcDecrypt blk s) (cbcDecrypt blk s') := by
  rw [cbcDecrypt_eq, cbcDecrypt_eq, chainValue_congr h]
  have hcap : AgreeButHidden { s with cap := blk } { s' with cap := blk } := h
  refine attemptsAgree_bind (runPipeline_agree .dec blk hcap) fun ⟨u, out⟩ ⟨u', out'⟩ ⟨hu, hout⟩ => ?_
  cases hout
  exact .ok ⟨agreeButHidden_advanceChain blk hu, rfl⟩

theorem transformBlock_agree (m : Mode) (blk : Block) (h : AgreeButHidden s s') :
    AttemptsAgree BlockResultsAgree (transformBlock m blk s) (transformBlock m blk s') := by
  have hconfig : s.config = s'.config := h.2.1
  unfold transformBlock
  rw [hconfig]
  split
  · exact runPipeline_agree m blk h
  · cases m with
    | enc => exact cbcEncrypt_agree blk h
    | dec => exact cbcDecrypt_agree blk h

theorem transform_agree (m : Mode) (dlen : BitVec 5) (hdata : s.dinl = s'.dinl) (h : AgreeButHidden s s') :
    AttemptsAgree AgreeButHidden (transform m dlen s) (transform m dlen s') := by
  have hsession : s.session = s'.session := h.1
  cases hv : transformVerdict dlen s.session with
  | error e =>
    rw [transform_of_error hv, transform_of_error (hsession ▸ hv)]
    exact .ok (agreeButHidden_raiseError e h)
  | ok u =>
    rw [transform_of_ok hv, transform_of_ok (hsession ▸ hv), hdata]
    exact attemptsAgree_bind (transformBlock_agree m s'.dinl h) fun r r' hr => .ok (agreeButHidden_writeResult hr)

theorem openSession_agree (cons : Construction) (ks : KeySize) (hkey : s.keyl = s'.keyl) (hiv : s.ivl = s'.ivl)
    (h : AgreeButHidden s s') :
    AttemptsAgree AgreeButHidden (openSession cons ks s) (openSession cons ks s') := by
  obtain ⟨-, -, -, -, hw, hrc, -⟩ := id h
  rw [openSession_eq, openSession_eq, hrc, hkey, hw]
  exact attemptsAgree_bind_same _ fun rc => attemptsAgree_bind_same _ fun e =>
    .ok (agreeButHidden_openedState cons ks rc e hiv h)

theorem createChecked_agree (cons : Construction) (klen : BitVec 6) (ivlen : BitVec 5) (hkey : s.keyl = s'.keyl)
    (hiv : s.ivl = s'.ivl) (h : AgreeButHidden s s') :
    AttemptsAgree AgreeButHidden (createChecked cons klen ivlen s) (createChecked cons klen ivlen s') := by
  cases hv : createVerdict cons klen ivlen with
  | error e =>
    rw [createChecked_of_error hv, createChecked_of_error hv]
    exact .ok (agreeButHidden_raiseError e h)
  | ok ks =>
    rw [createChecked_of_ok hv, createChecked_of_ok hv]
    exact openSession_agree cons ks hkey hiv h

theorem execCloseSession_agree (h : AgreeButHidden s s') :
    OutcomesAgree (execCloseSession s) (execCloseSession s') := by
  have hsession : s.session = s'.session := h.1
  by_cases hs : s.session = .idle
  · rw [execCloseSession_idle hs, execCloseSession_idle (hsession ▸ hs)]
    exact .next (agreeButHidden_raiseError .noSession h)
  · rw [execCloseSession_session hs, execCloseSession_session (hsession ▸ hs)]
    exact .next (agreeButHidden_status .ok (agreeButHidden_release h))

/-- An instruction reads no hidden state but the operands in the latches. -/
theorem exec_agree (i : Instr) (hkey : s.keyl = s'.keyl) (hiv : s.ivl = s'.ivl) (hdata : s.dinl = s'.dinl)
    (h : AgreeButHidden s s') : OutcomesAgree (exec i s) (exec i s') := by
  cases i with
  | createSession cons klen ivlen =>
    exact outcomesAgree_outcomeOf (createChecked_agree cons klen ivlen (s := release s) (s' := release s') hkey hiv
      (agreeButHidden_release h))
  | transformEnc dlen => exact outcomesAgree_outcomeOf (transform_agree .enc dlen hdata h)
  | transformDec dlen => exact outcomesAgree_outcomeOf (transform_agree .dec dlen hdata h)
  | closeSession => exact execCloseSession_agree h

theorem completeOutcome_agree {o o' : Host.Outcome State Fault Refusal} (h : OutcomesAgree o o') :
    OutcomesAgree (completeOutcome o) (completeOutcome o') := by
  cases h with
  | next h => exact .next (agreeButHidden_complete h)
  | fault f => exact .fault f
  | refused r => exact .refused r

/-- Acceptance loads all the latches, so the run of an accepted command reads none of the hidden state before it. -/
theorem executeLatched_accept_agree (p : PortsIn) (h : AgreeButHidden s s') :
    OutcomesAgree (executeLatched (accept p s)) (executeLatched (accept p s')) := by
  have haccept := agreeButHidden_accept p h
  unfold executeLatched
  rw [accept_cmdl, accept_cmdl]
  cases decode p.cmd with
  | error r => exact .next (agreeButHidden_complete (agreeButHidden_raiseError .illegalCommand haccept))
  | ok i => exact completeOutcome_agree (exec_agree i rfl rfl rfl haccept)

theorem transact_agree (p : PortsIn) (h : AgreeButHidden s s') :
    OutcomesAgree (transact p s) (transact p s') := by
  unfold transact
  split
  · exact .next ⟨rfl, rfl, rfl, rfl, rfl, rfl, rfl, rfl, rfl, rfl, rfl⟩
  · split
    · exact executeLatched_accept_agree p h
    · exact .next (agreeButHidden_quiet h)

end Agreement

/-- Settles O57: the two transactions have agreeing outcomes, and these are of one of three kinds, for each of which
one clause says the agreement and the other two do not arise. -/
theorem hiddenStateIsNotRead : Obligations.HiddenStateIsNotRead := by
  unfold Obligations.HiddenStateIsNotRead
  intro p s s' h
  have hagree := transact_agree p h
  generalize transact p s = o, transact p s' = o' at hagree
  cases hagree with
  | next ht =>
    refine ⟨fun t heq => ?_, fun _ heq => (nomatch heq), fun _ heq => (nomatch heq)⟩
    cases heq
    exact ⟨_, rfl, ht⟩
  | fault f => exact ⟨fun _ heq => (nomatch heq), fun _ heq => heq, fun _ heq => (nomatch heq)⟩
  | refused r => exact ⟨fun _ heq => (nomatch heq), fun _ heq => (nomatch heq), fun _ heq => heq⟩

end Sys2Proof.Proofs
end

section
/-! Completion: no operation stops on the states the invariant allows (45_round_pipeline.md R223;
93_implementation_defined.md). -/

namespace Sys2Proof.Proofs

open Sys2Proof.Machine

section Rounds
variable {w : Vector Word 60} {nr : BitVec 4}

/-- The steps that remain from RND to Nr complete (45_round_pipeline.md R230). -/
theorem encSteps_completes (hnr : nr.toNat ≤ 14) : ∀ (count : Nat) (p : Pipe),
    p.seq = .roundEnc → 1 ≤ p.rnd.toNat → p.rnd.toNat + count = nr.toNat →
    ∃ p', roundSteps (encStep w nr) (count + 1) p = .ok p'
  | 0, p, hs, _, hc => by
    have hrnd : p.rnd = nr := BitVec.eq_of_toNat_eq hc
    obtain ⟨st, hst⟩ := addRoundKey_completes w nr.toNat (shiftRows (subBytes p.st)) hnr
    simp only [roundSteps, encStep_final w nr p hs hrnd, hst]
    exact ⟨_, rfl⟩
  | count + 1, p, hs, h1, hc => by
    have hlt : p.rnd.toNat < nr.toNat := by omega
    have hnext : (p.rnd + 1).toNat = p.rnd.toNat + 1 := by
      rw [BitVec.toNat_add]
      exact Nat.mod_eq_of_lt (by simp; omega)
    obtain ⟨st, hst⟩ := addRoundKey_completes w p.rnd.toNat (mixColumns (shiftRows (subBytes p.st))) (by omega)
    rw [roundSteps, encStep_full w nr p hs h1 hlt, hst]
    exact encSteps_completes hnr count ⟨.roundEnc, p.rnd + 1, st⟩ rfl (by simp only [hnext]; omega)
      (by simp only [hnext]; omega)

/-- The steps that remain from RND down to 0 complete (45_round_pipeline.md R231). -/
theorem decSteps_completes : ∀ (count : Nat) (p : Pipe),
    p.seq = .roundDec → p.rnd.toNat = count → count ≤ 14 →
    ∃ p', roundSteps (decStep w) (count + 1) p = .ok p'
  | 0, p, hs, hc, _ => by
    obtain ⟨st, hst⟩ := addRoundKey_completes w 0 (invSubBytes (invShiftRows p.st)) (by omega)
    simp only [roundSteps, decStep_final w p hs hc, hst]
    exact ⟨_, rfl⟩
  | count + 1, p, hs, hc, hle => by
    have hnext : (p.rnd - 1).toNat = count := by
      rw [BitVec.toNat_sub_of_le (BitVec.le_def.mpr (by simp; omega)), hc]
      rfl
    obtain ⟨st, hst⟩ := addRoundKey_completes w p.rnd.toNat (invSubBytes (invShiftRows p.st)) (by omega)
    rw [roundSteps, decStep_full w p hs (by omega), hst]
    exact decSteps_completes count ⟨.roundDec, p.rnd - 1, invMixColumns st⟩ rfl hnext (by omega)

/-- The sequencer's run of one block completes, both ways, for every word file and every legal round count. -/
theorem runRounds_completes (m : Mode) (w : Vector Word 60) (blk : Block)
    (hnr : nr = 10#4 ∨ nr = 12#4 ∨ nr = 14#4) : ∃ p, runRounds m w nr blk = .ok p := by
  have hle : nr.toNat ≤ 14 := by obtain rfl | rfl | rfl := hnr <;> decide
  obtain ⟨count, hcount⟩ : ∃ count, nr.toNat = count + 1 := by
    obtain rfl | rfl | rfl := hnr <;> exact ⟨_, rfl⟩
  cases m with
  | enc =>
    obtain ⟨st, hst⟩ := addRoundKey_completes w 0 (loadState blk) (by omega)
    have hstart : startEnc w blk = .ok ⟨.roundEnc, 1#4, st⟩ := by rw [startEnc, hst]; rfl
    rw [runRounds, hstart, hcount]
    exact encSteps_completes hle count ⟨.roundEnc, 1#4, st⟩ rfl le_rfl (by rw [hcount, Nat.add_comm]; rfl)
  | dec =>
    obtain ⟨st, hst⟩ := addRoundKey_completes w nr.toNat (loadState blk) hle
    have hstart : startDec w nr blk = .ok ⟨.roundDec, nr - 1, st⟩ := by rw [startDec, hst]; rfl
    have hrnd : (nr - 1).toNat = count := by
      rw [BitVec.toNat_sub_of_le (BitVec.le_def.mpr (by simp; omega)), hcount]
      rfl
    rw [runRounds, hstart, hcount]
    exact decSteps_completes count ⟨.roundDec, nr - 1, st⟩ rfl hrnd (by omega)

end Rounds

section Commands
variable {s : State}

/-- On a state that can transform, the pipeline is the sequencer's run over W (45_round_pipeline.md R220, R223). -/
theorem runPipeline_of_canTransform {m : Mode} {blk : Block} {p : Pipe} (h : CanTransform s)
    (hp : runRounds m s.w (configNr s.config) blk = .ok p) :
    runPipeline m blk s = .ok ({ s with seq := p.seq, rnd := p.rnd, st := p.st }, storeState p.st) := by
  obtain ⟨hs, hnr⟩ := h
  simp only [runPipeline, hs, ne_eq, not_true_eq_false, if_false, if_pos hnr, hp]
  rfl

theorem runPipeline_completes (m : Mode) (blk : Block) (h : CanTransform s) :
    ∃ r, runPipeline m blk s = .ok r := by
  obtain ⟨p, hp⟩ := runRounds_completes m s.w blk h.2
  exact ⟨_, runPipeline_of_canTransform h hp⟩

theorem transformBlock_completes (m : Mode) (blk : Block) (h : CanTransform s) :
    ∃ r, transformBlock m blk s = .ok r := by
  unfold transformBlock
  split
  · exact runPipeline_completes m blk h
  · cases m with
    | enc =>
      obtain ⟨y, hy⟩ := runPipeline_completes .enc (xorBlock blk (chainValue s)) h
      exact ⟨_, by simp only [cbcEncrypt, hy, ok_bind]; rfl⟩
    | dec =>
      obtain ⟨y, hy⟩ := runPipeline_completes (s := { s with cap := blk }) .dec blk h
      exact ⟨_, by simp only [cbcDecrypt_eq, hy, ok_bind]; rfl⟩

/-- A TRANSFORM completes if a session that is open has a legal round count: its checks let no other state through to
the pipeline. -/
theorem transform_completes (m : Mode) (dlen : BitVec 5) (h : s.session = .opened → CanTransform s) :
    ∃ t, transform m dlen s = .ok t := by
  cases hv : transformVerdict dlen s.session with
  | error e => exact ⟨_, transform_of_error hv⟩
  | ok u =>
    obtain ⟨hs, -⟩ := transformVerdict_eq_ok hv
    obtain ⟨r, hr⟩ := transformBlock_completes m s.dinl (h hs)
    exact ⟨_, by rw [transform_of_ok hv, hr, ok_bind]⟩

/-- The checks of CREATE_SESSION fail: only STATUS is written after the release. -/
theorem execCreateSession_of_error {cons : Construction} {klen : BitVec 6} {ivlen : BitVec 5} {e : Status}
    (h : createVerdict cons klen ivlen = .error e) :
    execCreateSession cons klen ivlen s = .next { release s with status := e } := by
  rw [execCreateSession, createChecked_of_error h, raiseError_release_of_createVerdict h, outcomeOf_ok]

/-- The constants and the schedule of a key, as an opening computes them from released state, always exist. -/
theorem schedule_exists (ks : KeySize) (key : Vector Word 8) :
    ∃ rc e, roundConstants (nrcOf ks) zeroConstants = .ok rc ∧ keyExpansion ks key rc zeroWords = .ok e := by
  obtain ⟨rc, hrc⟩ := roundConstants_completes ks zeroConstants
  obtain ⟨e, he, -⟩ := keyExpansion_completes ks key rc zeroWords
  exact ⟨rc, e, hrc, he⟩

/-- The checks of CREATE_SESSION pass: the session is opened on released state, with the schedule of the key in the
latches. -/
theorem execCreateSession_of_ok {cons : Construction} {klen : BitVec 6} {ivlen : BitVec 5} {ks : KeySize}
    {rc : Vector Byte 10} {e : Expander} (h : createVerdict cons klen ivlen = .ok ks)
    (hrc : roundConstants (nrcOf ks) zeroConstants = .ok rc) (he : keyExpansion ks s.keyl rc zeroWords = .ok e) :
    execCreateSession cons klen ivlen s = .next (openedState cons ks rc e (release s)) := by
  have hopen : openSession cons ks (release s) = .ok (openedState cons ks rc e (release s)) := by
    rw [zeroConstants] at hrc
    rw [zeroWords] at he
    rw [openSession_eq, release_rc, hrc, ok_bind, release_keyl, release_w, he, ok_bind]
  rw [execCreateSession, createChecked_of_ok h, hopen, outcomeOf_ok]

theorem execCreateSession_completes (cons : Construction) (klen : BitVec 6) (ivlen : BitVec 5) (s : State) :
    ∃ t, execCreateSession cons klen ivlen s = .next t := by
  cases hv : createVerdict cons klen ivlen with
  | error e => exact ⟨_, execCreateSession_of_error hv⟩
  | ok ks =>
    obtain ⟨rc, e, hrc, he⟩ := schedule_exists ks s.keyl
    exact ⟨_, execCreateSession_of_ok hv hrc he⟩

theorem execCloseSession_completes (s : State) : ∃ t, execCloseSession s = .next t := by
  by_cases hs : s.session = .idle
  · exact ⟨_, execCloseSession_idle hs⟩
  · exact ⟨_, execCloseSession_session hs⟩

/-- The round count a session stores is legal (00_scope.md R7; 10_state.md R48). -/
theorem canTransform_of_sessionOk (hok : SessionOk s) (hs : s.session = .opened) : CanTransform s := by
  obtain ⟨hopen, -⟩ := hok
  obtain ⟨ks, cons, -, -, hconfig, -⟩ := hopen hs
  refine ⟨hs, ?_⟩
  rw [hconfig]
  have hnr := configNr_packConfig ks (constructionBits cons)
  cases ks with
  | k128 => exact .inl (BitVec.eq_of_toNat_eq hnr)
  | k192 => exact .inr (.inl (BitVec.eq_of_toNat_eq hnr))
  | k256 => exact .inr (.inr (BitVec.eq_of_toNat_eq hnr))

theorem exec_completes (i : Instr) (hok : SessionOk s) : ∃ t, exec i s = .next t := by
  cases i with
  | createSession cons klen ivlen => exact execCreateSession_completes cons klen ivlen s
  | transformEnc dlen | transformDec dlen =>
    exact (transform_completes _ dlen (canTransform_of_sessionOk hok)).imp fun _ => outcomeOf_eq_next.mpr
  | closeSession => exact execCloseSession_completes s

theorem executeLatched_completes (hok : SessionOk s) : ∃ t, executeLatched s = .next t := by
  cases hd : decode s.cmdl with
  | error r => exact ⟨_, executeLatched_eq_next.mpr (.inl ⟨r, hd, rfl⟩)⟩
  | ok i =>
    obtain ⟨u, hu⟩ := exec_completes i hok
    exact ⟨_, executeLatched_eq_next.mpr (.inr ⟨i, u, hd, hu, rfl⟩)⟩

theorem transact_completes (p : PortsIn) (hok : SessionOk s) : ∃ t, transact p s = .next t := by
  unfold transact
  split
  · exact ⟨_, rfl⟩
  · split
    · exact executeLatched_completes ((sessionOk_accept s p).mpr hok)
    · exact ⟨_, rfl⟩

end Commands

/-- Settles O18: a step between commands is a transaction, and the invariant keeps the pipeline, the one part that can
stop, from a round count it refuses. -/
theorem stepNeverStops : Obligations.StepNeverStops := by
  unfold Obligations.StepNeverStops
  intro s hinv
  obtain ⟨hbusy, -, hok⟩ := (inv_iff s).mp hinv
  rw [step_idle s hbusy, takeInput_state]
  exact transact_completes (s := { s with host := s.host.tail }) _ hok

end Sys2Proof.Proofs
end

section
/-! What a command's result does not depend on: the session before a CREATE_SESSION (20_memory.md R80) and the blocks
before an ECB TRANSFORM (20_memory.md R86). -/

namespace Sys2Proof.Proofs

open Sys2Proof.Machine

theorem createVerdict_ne_error_ok {cons : Construction} {klen : BitVec 6} {ivlen : BitVec 5} :
    createVerdict cons klen ivlen ≠ .error .ok := by
  unfold createVerdict
  split
  · simp
  · split_ifs <;> simp

/-- Settles O26: with failed checks both runs end in a released state; with passed checks both open the session of the
one schedule that the key latches give on released state. -/
theorem createForgetsWhatCameBefore : Obligations.CreateForgetsWhatCameBefore := by
  unfold Obligations.CreateForgetsWhatCameBefore
  intro s s' c k v hkey hiv
  cases hv : createVerdict c k v with
  | error e =>
    refine ⟨_, _, execCreateSession_of_error hv, execCreateSession_of_error hv,
      rfl, rfl, rfl, rfl, rfl, rfl, rfl, rfl, rfl, rfl, rfl, fun _ => ⟨rfl, released_release s⟩, ?_⟩
    rintro rfl
    exact absurd hv createVerdict_ne_error_ok
  | ok ks =>
    obtain ⟨rc, e, hrc, he⟩ := schedule_exists ks s.keyl
    have hiv' : (openedState c ks rc e (release s)).iv = (openedState c ks rc e (release s')).iv := by
      simp only [openedState, release_ivl, hiv]
    exact ⟨_, _, execCreateSession_of_ok hv hrc he, execCreateSession_of_ok hv hrc (hkey ▸ he),
      rfl, rfl, rfl, rfl, rfl, hiv', rfl, rfl, rfl, rfl, rfl, fun hne => absurd rfl hne, fun _ => rfl⟩

/-- In ECB the block goes through the pipeline alone (46_chaining.md R255). -/
theorem transformBlock_ecb {m : Mode} {blk : Block} {s : State} (hecb : configCons s.config = 0#2) :
    transformBlock m blk s = runPipeline m blk s := by
  unfold transformBlock
  rw [if_pos hecb, ecbBlock]

/-- An ECB TRANSFORM of 16 bytes writes to DOUT what the rounds over W make of the data operand (46_chaining.md
R255). -/
theorem transform_ecb {m : Mode} {s : State} {p : Pipe} (h : CanTransform s) (hecb : configCons s.config = 0#2)
    (hp : runRounds m s.w (configNr s.config) s.dinl = .ok p) :
    transform m 16#5 s =
      .ok (writeResult ({ s with seq := p.seq, rnd := p.rnd, st := p.st }, storeState p.st)) := by
  have hv : transformVerdict 16#5 s.session = .ok () := by rw [h.1]; rfl
  rw [transform_of_ok hv, transformBlock_ecb hecb, runPipeline_of_canTransform h hp, ok_bind]

/-- Settles O59: W, CONFIG and the data operand fix the run of the rounds, and DOUT is the block it leaves in S. -/
theorem ecbBlockIndependent : Obligations.EcbBlockIndependent := by
  unfold Obligations.EcbBlockIndependent
  intro s s' m hcan hopen' hecb hconfig hw hdata
  have hcan' : CanTransform s' := ⟨hopen', hconfig ▸ hcan.2⟩
  obtain ⟨p, hp⟩ := runRounds_completes m s.w s.dinl hcan.2
  have hrun := transform_ecb hcan hecb hp
  have hrun' := transform_ecb hcan' (hconfig ▸ hecb) (by rw [← hw, ← hconfig, ← hdata]; exact hp)
  cases m with
  | enc | dec => exact ⟨_, _, congrArg outcomeOf hrun, congrArg outcomeOf hrun', rfl⟩

end Sys2Proof.Proofs
end

section
/-! Bytes, words and ports (00_scope.md R12; 20_memory.md R71–R74). -/

namespace Sys2Proof.Proofs

open Sys2Proof.Machine

@[simp] theorem blockOfPort_getElem (p : BitVec 128) (k : Nat) (h : k < 16) :
    (blockOfPort p)[k] = p.extractLsb' (120 - 8 * k) 8 := by
  simp [blockOfPort]

@[simp] theorem wordsOfPort_getElem (p : BitVec 256) (j : Nat) (h : j < 8) :
    (wordsOfPort p)[j] = p.extractLsb' (224 - 32 * j) 32 := by
  simp [wordsOfPort]

/-- Shifting bytes in one after the other leaves the last one lowest: bit `i` lies in byte `i / 8` from the end. -/
theorem shiftIn_getLsbD (b : Block) (ks : List (Fin 16)) (i : Nat) (hi : i < 128) (hlen : i / 8 < ks.length) :
    (ks.foldl (fun (acc : BitVec 128) k => acc <<< 8 ||| b[k.val].setWidth 128) 0#128).getLsbD i =
      b[(ks[ks.length - 1 - i / 8]).val].getLsbD (i % 8) := by
  induction ks using List.reverseRecOn generalizing i with
  | nil => simp at hlen
  | append_singleton ks k ih =>
    rw [List.foldl_append]
    by_cases hlow : i < 8
    · have hdiv : i / 8 = 0 := Nat.div_eq_of_lt hlow
      have hmod : i % 8 = i := Nat.mod_eq_of_lt hlow
      simp [hlow, hdiv, hmod, hi]
    · have hlen' : (i - 8) / 8 < ks.length := by simp at hlen; omega
      have hmod : (i - 8) % 8 = i % 8 := by omega
      have hpos : ks.length - 1 - (i - 8) / 8 = ks.length - i / 8 := by omega
      have hhigh : b[k.val].getLsbD i = false := BitVec.getLsbD_of_ge _ _ (by omega)
      have ih := ih (i - 8) (by omega) hlen'
      rw [hmod, BitVec.getLsbD_eq_getElem (by omega)] at ih
      simpa [hlow, hi, hhigh, hpos, List.getElem_append_left (show ks.length - i / 8 < ks.length by omega)] using ih

/-- Bit `i` of a packed block lies in byte `15 - i / 8` (20_memory.md R74). -/
theorem portOfBlock_getLsbD (b : Block) (i : Nat) (hi : i < 128) :
    (portOfBlock b).getLsbD i = b[15 - i / 8].getLsbD (i % 8) := by
  have hids : ∀ j : Fin 16, ([0, 1, 2, 3, 4, 5, 6, 7, 8, 9, 10, 11, 12, 13, 14, 15] : List (Fin 16))[j.val] = j := by
    decide
  have hid := hids ⟨15 - i / 8, by omega⟩
  rw [portOfBlock, shiftIn_getLsbD (hi := hi)]
  · simp only [List.length_cons, List.length_nil, Nat.reduceAdd, Nat.reduceSub, hid]
  · exact show i / 8 < 16 by omega

theorem portOfBlock_blockOfPort (p : BitVec 128) : portOfBlock (blockOfPort p) = p := by
  apply BitVec.eq_of_getLsbD_eq
  intro i hi
  have hlow : i % 8 < 8 := Nat.mod_lt i (by omega)
  have hpos : 120 - 8 * (15 - i / 8) + i % 8 = i := by omega
  simp [portOfBlock_getLsbD _ i hi, hlow, hpos]

theorem blockOfPort_portOfBlock (b : Block) : blockOfPort (portOfBlock b) = b := by
  apply block_ext
  intro k
  apply BitVec.eq_of_getLsbD_eq
  intro i hi
  have hbyte : 15 - (120 - 8 * k.val + i) / 8 = k.val := by omega
  have hbit : (120 - 8 * k.val + i) % 8 = i := by omega
  simp [hi, portOfBlock_getLsbD b (120 - 8 * k.val + i) (by omega), hbyte, hbit]

/-- Byte `n` of key word `j` is byte `4j + n` of the key port (20_memory.md R72, R74). -/
theorem wordByte_wordsOfPort (p : BitVec 256) (j : Fin 8) (n : Fin 4) :
    wordByte (wordsOfPort p)[j.val] n = p.extractLsb' (248 - 8 * (4 * j.val + n.val)) 8 := by
  apply BitVec.eq_of_getLsbD_eq
  intro i hi
  have hin : 24 - 8 * n.val + i < 32 := by omega
  have hpos : 224 - 32 * j.val + (24 - 8 * n.val + i) = 248 - 8 * (4 * j.val + n.val) + i := by omega
  simp [wordByte, hi, hin, hpos]

section Words
variable (a b c d : Byte)

/-- A word is its four bytes one after the other, byte 0 most significant (00_scope.md R12). -/
theorem word_eq_append : word a b c d = a ++ b ++ c ++ d := by
  ext i hi
  simp only [word, BitVec.getElem_or]
  grind

theorem word_toNat : (word a b c d).toNat = a.toNat * 2 ^ 24 + b.toNat * 2 ^ 16 + c.toNat * 2 ^ 8 + d.toNat := by
  have happend (n : Nat) (x : BitVec n) (y : Byte) : (x ++ y).toNat = x.toNat * 2 ^ 8 + y.toNat := by
    rw [BitVec.toNat_append, ← Nat.shiftLeft_add_eq_or_of_lt y.isLt, Nat.shiftLeft_eq]
  rw [word_eq_append, happend, happend, happend]
  ring

theorem word_wordByte (w : Word) : word (wordByte w 0) (wordByte w 1) (wordByte w 2) (wordByte w 3) = w := by
  have hjoin (start len : Nat) :
      w.extractLsb' (start + 8) len ++ w.extractLsb' start 8 = w.extractLsb' start (len + 8) :=
    BitVec.extractLsb'_append_extractLsb'_eq_extractLsb' rfl
  calc word (wordByte w 0) (wordByte w 1) (wordByte w 2) (wordByte w 3)
      = w.extractLsb' 24 8 ++ w.extractLsb' 16 8 ++ w.extractLsb' 8 8 ++ w.extractLsb' 0 8 := word_eq_append _ _ _ _
    _ = w.extractLsb' 0 32 := by rw [hjoin 16 8, hjoin 8 16, hjoin 0 24]
    _ = w := BitVec.extractLsb'_eq_self

end Words

/-- Settles O51: the round trips, the key words and the value of a word are each a lemma above. -/
theorem portPackingRoundTrip : Obligations.PortPackingRoundTrip := by
  unfold Obligations.PortPackingRoundTrip
  exact ⟨portOfBlock_blockOfPort, blockOfPort_portOfBlock, wordByte_wordsOfPort, word_wordByte, word_toNat⟩

end Sys2Proof.Proofs
end

section
/-! The decoder and the encoder (30_encoding.md R107–R115): what each format's word holds in its fields, and which words
decode to which instruction. -/

namespace Sys2Proof.Proofs

open Sys2Proof.Machine

/-- The reserved bits of format C are 0 (30_encoding.md R108, R111). -/
def ReservedZeroC (cmd : BitVec 32) : Prop :=
  cmd.extractLsb' 6 2 = 0#2 ∧ cmd.extractLsb' 14 2 = 0#2 ∧ cmd.extractLsb' 21 11 = 0#11

/-- The reserved bits of format T are 0 (30_encoding.md R109, R111). -/
def ReservedZeroT (cmd : BitVec 32) : Prop := cmd.extractLsb' 5 3 = 0#3 ∧ cmd.extractLsb' 13 19 = 0#19

/-- The reserved bits of format Z are 0 (30_encoding.md R110, R111). -/
def ReservedZeroZ (cmd : BitVec 32) : Prop := cmd.extractLsb' 4 28 = 0#28

/-- The MODE field of a direction (30_encoding.md R109). -/
def modeBits : Mode → BitVec 1
  | .enc => 0#1
  | .dec => 1#1

section Encode
variable (c : Construction) (klen : BitVec 6) (ivlen : BitVec 5) (m : Mode) (dlen : BitVec 5)

@[simp] theorem opField_encodeC : opField (encodeC c klen ivlen) = 1#4 := by
  ext i hi
  simp only [opField, encodeC, BitVec.getElem_extractLsb', BitVec.getLsbD_or]
  grind

@[simp] theorem consField_encodeC : consField (encodeC c klen ivlen) = constructionBits c := by
  ext i hi
  simp only [consField, encodeC, BitVec.getElem_extractLsb', BitVec.getLsbD_or]
  grind

@[simp] theorem klenField_encodeC : klenField (encodeC c klen ivlen) = klen := by
  ext i hi
  simp only [klenField, encodeC, BitVec.getElem_extractLsb', BitVec.getLsbD_or]
  grind

@[simp] theorem ivlenField_encodeC : ivlenField (encodeC c klen ivlen) = ivlen := by
  ext i hi
  simp only [ivlenField, encodeC, BitVec.getElem_extractLsb', BitVec.getLsbD_or]
  grind

theorem reservedZeroC_encodeC : ReservedZeroC (encodeC c klen ivlen) := by
  refine ⟨?_, ?_, ?_⟩ <;>
  · ext i hi
    simp only [encodeC, BitVec.getElem_extractLsb', BitVec.getLsbD_or]
    grind

@[simp] theorem opField_encodeT : opField (encodeT m dlen) = 2#4 := by
  cases m with
  | enc | dec => decide +revert

@[simp] theorem modeField_encodeT : modeField (encodeT m dlen) = modeBits m := by
  cases m with
  | enc | dec => decide +revert

@[simp] theorem dlenField_encodeT : dlenField (encodeT m dlen) = dlen := by
  cases m with
  | enc | dec => decide +revert

theorem reservedZeroT_encodeT : ReservedZeroT (encodeT m dlen) := by
  unfold ReservedZeroT
  cases m with
  | enc | dec => decide +revert

end Encode

section Fields
variable {a b : BitVec 32}

/-- The fields and the reserved bits of format C are the whole word (30_encoding.md R108). -/
theorem eq_of_fieldsC (hop : opField a = opField b) (hcons : consField a = consField b)
    (hklen : klenField a = klenField b) (hivlen : ivlenField a = ivlenField b) (ha : ReservedZeroC a)
    (hb : ReservedZeroC b) : a = b := by
  simp only [opField, consField, klenField, ivlenField, ReservedZeroC, ← BitVec.toNat_inj, BitVec.extractLsb'_toNat,
    BitVec.toNat_ofNat, Nat.shiftRight_eq_div_pow] at *
  omega

/-- The fields and the reserved bits of format T are the whole word (30_encoding.md R109). -/
theorem eq_of_fieldsT (hop : opField a = opField b) (hmode : modeField a = modeField b)
    (hdlen : dlenField a = dlenField b) (ha : ReservedZeroT a) (hb : ReservedZeroT b) : a = b := by
  simp only [opField, modeField, dlenField, ReservedZeroT, ← BitVec.toNat_inj, BitVec.extractLsb'_toNat,
    BitVec.toNat_ofNat, Nat.shiftRight_eq_div_pow] at *
  omega

/-- The opcode and the reserved bits of format Z are the whole word (30_encoding.md R110). -/
theorem eq_of_fieldsZ (hop : opField a = opField b) (ha : ReservedZeroZ a) (hb : ReservedZeroZ b) : a = b := by
  simp only [opField, ReservedZeroZ, ← BitVec.toNat_inj, BitVec.extractLsb'_toNat, BitVec.toNat_ofNat,
    Nat.shiftRight_eq_div_pow] at *
  omega

end Fields

section EncodeIff
variable {cmd : BitVec 32} {c : Construction} {klen : BitVec 6} {ivlen : BitVec 5} {m : Mode} {dlen : BitVec 5}

/-- A word is that of a CREATE_SESSION exactly when its format C fields say so. -/
theorem encodeC_eq_iff :
    encodeC c klen ivlen = cmd ↔
      opField cmd = 1#4 ∧ ReservedZeroC cmd ∧ constructionBits c = consField cmd ∧ klen = klenField cmd ∧
        ivlen = ivlenField cmd := by
  constructor
  · rintro rfl
    simp [reservedZeroC_encodeC]
  · rintro ⟨hop, hres, hcons, hklen, hivlen⟩
    apply eq_of_fieldsC <;> simp [reservedZeroC_encodeC, hop, hres, hcons, ← hklen, ← hivlen]

/-- A word is that of a TRANSFORM exactly when its format T fields say so. -/
theorem encodeT_eq_iff :
    encodeT m dlen = cmd ↔
      opField cmd = 2#4 ∧ ReservedZeroT cmd ∧ modeField cmd = modeBits m ∧ dlen = dlenField cmd := by
  constructor
  · rintro rfl
    simp [reservedZeroT_encodeT]
  · rintro ⟨hop, hres, hmode, hdlen⟩
    apply eq_of_fieldsT <;> simp [reservedZeroT_encodeT, hop, hres, hmode, ← hdlen]

/-- A word is that of a well-formed TRANSFORM exactly when it passes the decoder's checks for its direction. -/
theorem encodeT_eq_and_dlenOk_iff :
    (opField cmd = 2#4 ∧ ReservedZeroT cmd ∧ DlenOk (dlenField cmd) ∧ modeField cmd = modeBits m ∧
      dlen = dlenField cmd) ↔ encodeT m dlen = cmd ∧ DlenOk dlen := by
  rw [encodeT_eq_iff]
  constructor
  · rintro ⟨hop, hres, hle, hmode, rfl⟩
    exact ⟨⟨hop, hres, hmode, rfl⟩, hle⟩
  · rintro ⟨⟨hop, hres, hmode, rfl⟩, hle⟩
    exact ⟨hop, hres, hle, hmode, rfl⟩

/-- A word is that of CLOSE_SESSION exactly when its opcode says so and every other bit is 0. -/
theorem closeWord_eq_iff : 3#32 = cmd ↔ opField cmd = 3#4 ∧ ReservedZeroZ cmd := by
  constructor
  · rintro rfl
    exact ⟨rfl, rfl⟩
  · rintro ⟨hop, hres⟩
    exact eq_of_fieldsZ hop.symm rfl hres

end EncodeIff

theorem constructionOf_eq_some_iff {b : BitVec 2} {c : Construction} :
    constructionOf b = some c ↔ constructionBits c = b := by
  cases c with
  | ecb | cbc | gcm => decide +revert

theorem constructionOf_eq_none_iff {b : BitVec 2} : constructionOf b = none ↔ b = 3#2 := by
  decide +revert

/-- Every CONS but 3 selects a construction (30_encoding.md R108). -/
theorem exists_constructionBits_iff {b : BitVec 2} : (∃ c, constructionBits c = b) ↔ b ≠ 3#2 := by
  simp only [← constructionOf_eq_some_iff, ne_eq, ← constructionOf_eq_none_iff]
  exact Option.ne_none_iff_exists'.symm

section Decode
variable {cmd : BitVec 32} {i : Instr}

theorem not_reservedZeroC_iff :
    ¬ReservedZeroC cmd ↔
      cmd.extractLsb' 6 2 ≠ 0#2 ∨ cmd.extractLsb' 14 2 ≠ 0#2 ∨ cmd.extractLsb' 21 11 ≠ 0#11 := by
  simp [ReservedZeroC, imp_iff_not_or]

theorem not_reservedZeroT_iff :
    ¬ReservedZeroT cmd ↔ cmd.extractLsb' 5 3 ≠ 0#3 ∨ cmd.extractLsb' 13 19 ≠ 0#19 := by
  simp [ReservedZeroT, imp_iff_not_or]

/-- All format C spells (30_encoding.md R108, R113). -/
theorem decodeC_eq_ok_iff :
    decodeC cmd = .ok i ↔
      ReservedZeroC cmd ∧
        ∃ c, constructionBits c = consField cmd ∧ i = .createSession c (klenField cmd) (ivlenField cmd) := by
  simp only [← constructionOf_eq_some_iff]
  unfold decodeC
  split_ifs with hfail
  · simp [not_reservedZeroC_iff.mpr hfail]
  · have hres : ReservedZeroC cmd := not_not.mp (mt not_reservedZeroC_iff.mp hfail)
    cases constructionOf (consField cmd) with
    | none => simp
    | some c => simp [hres, eq_comm]

/-- All format T spells (30_encoding.md R109, R113). -/
theorem decodeT_eq_ok_iff :
    decodeT cmd = .ok i ↔
      ReservedZeroT cmd ∧ DlenOk (dlenField cmd) ∧
        (modeField cmd = 0#1 ∧ i = .transformEnc (dlenField cmd) ∨
          modeField cmd = 1#1 ∧ i = .transformDec (dlenField cmd)) := by
  have hmode : modeField cmd = 0#1 ∨ modeField cmd = 1#1 := by
    generalize modeField cmd = b
    decide +revert
  unfold decodeT
  split_ifs with hfail hlong henc
  · simp [not_reservedZeroT_iff.mpr hfail]
  · simp [DlenOk, hlong]
  · have hres : ReservedZeroT cmd := not_not.mp (mt not_reservedZeroT_iff.mp hfail)
    simp [hres, DlenOk, not_lt.mp hlong, henc, eq_comm]
  · have hres : ReservedZeroT cmd := not_not.mp (mt not_reservedZeroT_iff.mp hfail)
    simp [hres, DlenOk, not_lt.mp hlong, hmode.resolve_left henc, eq_comm]

/-- All format Z spells (30_encoding.md R110, R113). -/
theorem decodeZ_eq_ok_iff : decodeZ cmd = .ok i ↔ ReservedZeroZ cmd ∧ i = .closeSession := by
  unfold decodeZ
  split_ifs with hfail
  · simp [ReservedZeroZ, hfail]
  · simp [ReservedZeroZ, not_not.mp hfail, eq_comm]

/-- The opcode chooses the format (30_encoding.md R107, R113). -/
theorem decode_eq_ok_iff_format :
    decode cmd = .ok i ↔
      (opField cmd = 1#4 ∧ decodeC cmd = .ok i) ∨ (opField cmd = 2#4 ∧ decodeT cmd = .ok i) ∨
        (opField cmd = 3#4 ∧ decodeZ cmd = .ok i) := by
  unfold decode
  split_ifs with h1 h2 h3
  · simp [h1]
  · simp [h2]
  · simp [h3]
  · simp [h1, h2, h3]

/-- The words that decode to an instruction are the one word of a well-formed instruction, and none of another
(30_encoding.md R108–R113). -/
theorem decode_eq_ok_iff : decode cmd = .ok i ↔ encode i = cmd ∧ WellFormed i = true := by
  rw [decode_eq_ok_iff_format, decodeC_eq_ok_iff, decodeT_eq_ok_iff, decodeZ_eq_ok_iff]
  cases i with
  | createSession c klen ivlen => simp [encode, WellFormed, encodeC_eq_iff]
  | transformEnc dlen => simpa [encode, WellFormed, modeBits] using encodeT_eq_and_dlenOk_iff (m := .enc)
  | transformDec dlen => simpa [encode, WellFormed, modeBits] using encodeT_eq_and_dlenOk_iff (m := .dec)
  | closeSession => simp [encode, WellFormed, closeWord_eq_iff]

end Decode

/-- Settles O5: `decode_eq_ok_iff` at the instruction's own word. -/
theorem decodeEncodeRoundTrip : Obligations.DecodeEncodeRoundTrip := by
  unfold Obligations.DecodeEncodeRoundTrip
  intro i hwf
  exact decode_eq_ok_iff.mpr ⟨rfl, hwf⟩

/-- Settles O6: `decode_eq_ok_iff`, read from left to right. -/
theorem encodeDecodeRoundTrip : Obligations.EncodeDecodeRoundTrip := by
  unfold Obligations.EncodeDecodeRoundTrip
  intro cmd i h
  exact decode_eq_ok_iff.mp h

end Sys2Proof.Proofs
end

section
/-! The words that spell no command, and what an illegal command does (30_encoding.md R113, R115, R122). -/

namespace Sys2Proof.Proofs

open Sys2Proof.Machine

/-- The words that spell a command: its opcode, the reserved bits of its format 0, and no field value that selects
nothing (30_encoding.md R107–R111). -/
def LegalWord (cmd : BitVec 32) : Prop :=
  (opField cmd = 1#4 ∧ ReservedZeroC cmd ∧ consField cmd ≠ 3#2) ∨
    (opField cmd = 2#4 ∧ ReservedZeroT cmd ∧ DlenOk (dlenField cmd)) ∨
    (opField cmd = 3#4 ∧ ReservedZeroZ cmd)

section Verdict
variable {cmd : BitVec 32}

theorem opField_cases (cmd : BitVec 32) :
    opField cmd = 1#4 ∨ opField cmd = 2#4 ∨ opField cmd = 3#4 ∨ (opField cmd = 0#4 ∨ 4 ≤ (opField cmd).toNat) := by
  generalize opField cmd = op
  decide +revert

theorem illegalWord_iff_fields :
    IllegalWord cmd ↔
      (opField cmd = 0#4 ∨ 4 ≤ (opField cmd).toNat) ∨
        (opField cmd = 1#4 ∧ (¬ReservedZeroC cmd ∨ consField cmd = 3#2)) ∨
        (opField cmd = 2#4 ∧ (¬ReservedZeroT cmd ∨ 16 < (dlenField cmd).toNat)) ∨
        (opField cmd = 3#4 ∧ ¬ReservedZeroZ cmd) := by
  simp only [IllegalWord, not_reservedZeroC_iff, not_reservedZeroT_iff, or_assoc]
  rfl

/-- R115's list leaves out exactly the words that spell a command. -/
theorem illegalWord_iff_not_legalWord : IllegalWord cmd ↔ ¬LegalWord cmd := by
  rw [illegalWord_iff_fields, LegalWord]
  obtain h | h | h | h := opField_cases cmd
  · simp [h, imp_iff_not_or]
  · simp [h, imp_iff_not_or]
  · simp [h]
  · have h1 : opField cmd ≠ 1#4 := by rintro h1; simp [h1] at h
    have h2 : opField cmd ≠ 2#4 := by rintro h2; simp [h2] at h
    have h3 : opField cmd ≠ 3#4 := by rintro h3; simp [h3] at h
    simp [h, h1, h2, h3]

theorem decode_formatC (h : opField cmd = 1#4) : decode cmd = decodeC cmd := by simp [decode, h]

theorem decode_formatT (h : opField cmd = 2#4) : decode cmd = decodeT cmd := by simp [decode, h]

theorem decode_formatZ (h : opField cmd = 3#4) : decode cmd = decodeZ cmd := by simp [decode, h]

theorem modeField_eq_ofBool (cmd : BitVec 32) : modeField cmd = BitVec.ofBool (cmd.getLsbD 4) := by
  ext i hi
  obtain rfl : i = 0 := by omega
  simp [modeField]

/-- The verdict of the decoder on a word that spells a command, the direction of a TRANSFORM read from bit 4
(30_encoding.md R109, R113). -/
theorem decode_of_legalWord (h : LegalWord cmd) :
    (opField cmd = 1#4 ∧ ∃ c, constructionBits c = consField cmd ∧
        decode cmd = .ok (.createSession c (klenField cmd) (ivlenField cmd))) ∨
      (opField cmd = 2#4 ∧ cmd.getLsbD 4 = false ∧ decode cmd = .ok (.transformEnc (dlenField cmd))) ∨
      (opField cmd = 2#4 ∧ cmd.getLsbD 4 = true ∧ decode cmd = .ok (.transformDec (dlenField cmd))) ∨
      (opField cmd = 3#4 ∧ decode cmd = .ok .closeSession) := by
  obtain ⟨hop, hres, hcons⟩ | ⟨hop, hres, hlen⟩ | ⟨hop, hres⟩ := h
  · obtain ⟨c, hc⟩ := exists_constructionBits_iff.mpr hcons
    refine .inl ⟨hop, c, hc, ?_⟩
    rw [decode_formatC hop, decodeC_eq_ok_iff]
    exact ⟨hres, c, hc, rfl⟩
  · rw [decode_formatT hop]
    cases hbit : cmd.getLsbD 4 with
    | false =>
      have hmode : modeField cmd = 0#1 := by rw [modeField_eq_ofBool, hbit]; rfl
      exact .inr (.inl ⟨hop, rfl, decodeT_eq_ok_iff.mpr ⟨hres, hlen, .inl ⟨hmode, rfl⟩⟩⟩)
    | true =>
      have hmode : modeField cmd = 1#1 := by rw [modeField_eq_ofBool, hbit]; rfl
      exact .inr (.inr (.inl ⟨hop, rfl, decodeT_eq_ok_iff.mpr ⟨hres, hlen, .inr ⟨hmode, rfl⟩⟩⟩))
  · refine .inr (.inr (.inr ⟨hop, ?_⟩))
    rw [decode_formatZ hop, decodeZ_eq_ok_iff]
    exact ⟨hres, rfl⟩

/-- The words that decode to an instruction are those that spell a command (30_encoding.md R113). -/
theorem exists_decode_eq_ok_iff : (∃ i, decode cmd = .ok i) ↔ LegalWord cmd := by
  constructor
  · rintro ⟨i, hi⟩
    obtain ⟨hop, hi⟩ | ⟨hop, hi⟩ | ⟨hop, hi⟩ := decode_eq_ok_iff_format.mp hi
    · obtain ⟨hres, c, hc, -⟩ := decodeC_eq_ok_iff.mp hi
      exact .inl ⟨hop, hres, exists_constructionBits_iff.mp ⟨c, hc⟩⟩
    · obtain ⟨hres, hlen, -⟩ := decodeT_eq_ok_iff.mp hi
      exact .inr (.inl ⟨hop, hres, hlen⟩)
    · obtain ⟨hres, -⟩ := decodeZ_eq_ok_iff.mp hi
      exact .inr (.inr ⟨hop, hres⟩)
  · intro h
    obtain ⟨-, c, -, hd⟩ | ⟨-, -, hd⟩ | ⟨-, -, hd⟩ | ⟨-, hd⟩ := decode_of_legalWord h <;> exact ⟨_, hd⟩

/-- The decoder rejects exactly the words of R115's list. -/
theorem illegalWord_iff_decode_eq_error : IllegalWord cmd ↔ ∃ r, decode cmd = .error r := by
  rw [illegalWord_iff_not_legalWord, ← exists_decode_eq_ok_iff]
  cases decode cmd with
  | error r => simp
  | ok i => simp

end Verdict

/-- Settles O7: an illegal word is rejected, and any other spells a command whose fields `decode_of_legalWord` reads. -/
theorem decoderFollowsPseudocode : Obligations.DecoderFollowsPseudocode := by
  unfold Obligations.DecoderFollowsPseudocode
  intro cmd
  by_cases h : IllegalWord cmd
  · exact .inl ⟨h, illegalWord_iff_decode_eq_error.mp h⟩
  · exact .inr ⟨h, decode_of_legalWord (not_not.mp (mt illegalWord_iff_not_legalWord.mpr h))⟩

theorem executeLatched_illegal {s : State} {r : Illegal} (h : decode s.cmdl = .error r) :
    executeLatched s = .next (complete (raiseError .illegalCommand s)) := by
  simp [executeLatched, h]

/-- Settles O10: an illegal word is one the decoder rejects, and its command runs to IllegalCommand on the accepted
state. -/
theorem illegalWordChangesOnlyStatus : Obligations.IllegalWordChangesOnlyStatus := by
  unfold Obligations.IllegalWordChangesOnlyStatus
  refine ⟨fun cmd => illegalWord_iff_decode_eq_error, fun s p hrst hvalid hillegal => ?_⟩
  obtain ⟨r, hr⟩ := illegalWord_iff_decode_eq_error.mp hillegal
  rw [transact_command s hrst hvalid, executeLatched_illegal (s := accept p s) hr]
  rfl

/-- Settles O3: the encoder computes each word. -/
theorem workedEncodings : Obligations.WorkedEncodings := by
  unfold Obligations.WorkedEncodings
  decide

/-- Settles O4: the decoder computes the verdict on each word. -/
theorem decodedWords : Obligations.DecodedWords := by
  unfold Obligations.DecodedWords
  decide

end Sys2Proof.Proofs
end

section
/-! The step, the port protocol and its edges (30_encoding.md R100–R106; 47_commands.md R270). -/

namespace Sys2Proof.Proofs

open Sys2Proof.Machine

section Step
variable {s : State} {p : PortsIn} {rest : List PortsIn} {i : Instr}

theorem takeInput_cons (h : s.host = p :: rest) : takeInput s = (p, { s with host := rest }) := by
  simp [takeInput, h]

theorem takeInput_nil (h : s.host = []) : takeInput s = (idlePorts, s) := by
  simp [takeInput, h]

/-- A host that drives no reset next gives the step none. -/
theorem takeInput_rst (h : ∀ p ∈ s.host.head?, p.rst = false) : (takeInput s).1.rst = false := by
  cases hhost : s.host with
  | nil => rw [takeInput_nil hhost]; rfl
  | cons p rest =>
    rw [takeInput_cons hhost]
    exact h p (by simp [hhost])

theorem executeLatched_legal (h : decode s.cmdl = .ok i) : executeLatched s = completeOutcome (exec i s) := by
  simp [executeLatched, h]

/-- A step of a busy core finishes the latched command, unless the host drives a reset (30_encoding.md R105). -/
theorem step_busy (hbusy : s.busy = true) (hrst : (takeInput s).1.rst = false) : step s = executeLatched s := by
  simp [step, stepOnce, hbusy, hrst]

/-- A reset driven with the step is taken whatever the core is doing (70_reset_and_hazards.md R350, R352). -/
theorem step_reset (hrst : (takeInput s).1.rst = true) : step s = .next (resetEdge (takeInput s).2) := by
  simp [step, stepOnce, hrst, transact_reset]

/-- With no command offered, a transaction only lowers `rsp_valid` (60_exceptions.md R335). -/
theorem transact_noCommand (s : State) (hrst : p.rst = false) (hvalid : p.cmdValid = false) :
    transact p s = .next (quiet s) := by
  simp [transact, hrst, hvalid]

end Step

/-- Settles O8: an idle core's step is the transaction of the host's next input, a busy core's finishes the latched
command, and a reset comes before both. -/
theorem stepRunsDecodedInstruction : Obligations.StepRunsDecodedInstruction := by
  unfold Obligations.StepRunsDecodedInstruction
  refine ⟨?_, ?_, ?_, fun _ => rfl⟩
  · intro s p rest i hbusy hhost hrst hvalid hdec
    rw [step_idle s hbusy, takeInput_cons hhost, transact_command _ hrst hvalid,
      executeLatched_legal (s := accept p { s with host := rest }) hdec]
    rfl
  · intro s i hbusy hrst hdec
    rw [step_busy hbusy (takeInput_rst hrst), executeLatched_legal hdec]
  · intro s p rest hhost hrst
    rw [step_reset (by rwa [takeInput_cons hhost]), takeInput_cons hhost, resetEdge_eq]

/-- Settles O9: what an idle core takes from the host offers no command. -/
theorem stepWithoutCommandIsQuiet : Obligations.StepWithoutCommandIsQuiet := by
  unfold Obligations.StepWithoutCommandIsQuiet
  constructor
  · intro s p rest hbusy hhost hrst hvalid
    rw [step_idle s hbusy, takeInput_cons hhost, transact_noCommand _ hrst hvalid, quiet_eq]
  · intro s hbusy hhost
    rw [step_idle s hbusy, takeInput_nil hhost, transact_noCommand _ rfl rfl, quiet_eq]

section Edge
variable {p : PortsIn} {c c' : Clocked}

/-- An idle core accepts an offered command (30_encoding.md R103). -/
theorem clockEdge_accept (hrst : p.rst = false) (hvalid : p.cmdValid = true) (hbusy : c.core.busy = false) :
    clockEdge p c = .next ⟨accept p c.core, 0⟩ := by
  simp [clockEdge, hrst, hvalid, hbusy]

/-- While a command executes, the edge looks at no port but `rst` (30_encoding.md R105). -/
theorem clockEdge_busy (hrst : p.rst = false) (hbusy : c.core.busy = true) :
    clockEdge p c =
      if c.age + 1 < latency c.core then .next ⟨quiet c.core, c.age + 1⟩ else freshClock (executeLatched c.core) := by
  simp [clockEdge, hrst, hbusy]

/-- An idle core with no command offered stays idle (60_exceptions.md R335). -/
theorem clockEdge_noCommand (hrst : p.rst = false) (hvalid : p.cmdValid = false) (hbusy : c.core.busy = false) :
    clockEdge p c = .next ⟨quiet c.core, 0⟩ := by
  simp [clockEdge, hrst, hvalid, hbusy]

/-- A fresh clock comes with the next state of the command alone. -/
theorem freshClock_eq_next {o : Host.Outcome State Fault Refusal} :
    freshClock o = .next c ↔ ∃ t, o = .next t ∧ c = ⟨t, 0⟩ := by
  cases o with
  | next t => simp [freshClock, eq_comm]
  | fault f => simp [freshClock]
  | refused r => simp [freshClock]

/-- Only the edge that completes the executing command leaves `rsp_valid` at 1 (30_encoding.md R104). -/
theorem clockEdge_rspValid (h : clockEdge p c = .next c') (hrsp : c'.core.rspValid = true) :
    p.rst = false ∧ c.core.busy = true ∧ executeLatched c.core = .next c'.core := by
  cases hrst : p.rst with
  | true =>
    rw [clockEdge_reset c hrst] at h
    cases h
    cases hrsp
  | false =>
    cases hbusy : c.core.busy with
    | true =>
      rw [clockEdge_busy hrst hbusy] at h
      split at h
      · cases h
        cases hrsp
      · obtain ⟨t, ht, rfl⟩ := freshClock_eq_next.mp h
        exact ⟨rfl, rfl, ht⟩
    | false =>
      cases hvalid : p.cmdValid with
      | true =>
        rw [clockEdge_accept hrst hvalid hbusy] at h
        cases h
        cases hrsp
      | false =>
        rw [clockEdge_noCommand hrst hvalid hbusy] at h
        cases h
        cases hrsp

end Edge

/-- Settles O13: acceptance, the busy edge and the response are each an edge lemma above, and the output ports show the
registers, DOUT by the packing of a block. -/
theorem portProtocol : Obligations.PortProtocol := by
  unfold Obligations.PortProtocol
  refine ⟨fun p c hrst hvalid hbusy => clockEdge_accept hrst hvalid hbusy, ?_, ?_, ?_⟩
  · intro p q c hbusy hp hq
    rw [clockEdge_busy hp hbusy, clockEdge_busy hq hbusy]
  · intro p c c' h hrsp
    obtain ⟨hrst, hbusy, hrun⟩ := clockEdge_rspValid h hrsp
    obtain ⟨hidle, -⟩ := executeLatched_response hrun
    exact ⟨hrst, hbusy, hidle, hrun⟩
  · intro s
    exact ⟨rfl, rfl, rfl, rfl, blockOfPort_portOfBlock s.dout⟩

theorem latency_pos (s : State) : 1 ≤ latency s := by
  unfold latency
  split <;> exact Nat.le_add_left 1 _

section Run
variable {s : State} {c : Clocked} {p : PortsIn}

/-- A run goes on from the core its first edge leaves. -/
theorem clockRun_cons {c' : Clocked} (ps : List PortsIn) (h : clockEdge p c = .next c') :
    clockRun (p :: ps) c = clockRun ps c' := by
  simp [clockRun, h]

/-- A run of one edge is that edge. -/
theorem clockRun_singleton (p : PortsIn) (c : Clocked) : clockRun [p] c = clockEdge p c := by
  cases h : clockEdge p c with
  | next c' | fault f | refused r => simp [clockRun, h]

/-- A further cycle of the executing command changes nothing but its age (30_encoding.md R104, R105). -/
theorem clockEdge_wait {k : Nat} (hrst : p.rst = false) (hbusy : s.busy = true) (hrsp : s.rspValid = false)
    (hk : k + 1 < latency s) : clockEdge p ⟨s, k⟩ = .next ⟨s, k + 1⟩ := by
  have hquiet : quiet s = s := by rw [quiet_eq, ← hrsp]
  rw [clockEdge_busy hrst hbusy, if_pos hk, hquiet]

/-- At the age of its latency the command completes (30_encoding.md R104, R106). -/
theorem clockEdge_finish {k : Nat} (hrst : p.rst = false) (hbusy : s.busy = true) (hk : k + 1 = latency s) :
    clockEdge p ⟨s, k⟩ = freshClock (executeLatched s) := by
  rw [clockEdge_busy hrst hbusy, if_neg (by simp only [hk]; omega)]

/-- Before its latency is over, an executing command is only older. -/
theorem clockRun_wait (hbusy : s.busy = true) (hrsp : s.rspValid = false) (ps : List PortsIn) (k : Nat)
    (hrst : ∀ q ∈ ps, q.rst = false) (hk : k + ps.length < latency s) :
    clockRun ps ⟨s, k⟩ = .next ⟨s, k + ps.length⟩ := by
  induction ps generalizing k with
  | nil => rfl
  | cons q ps ih =>
    rw [List.length_cons] at hk ⊢
    rw [List.forall_mem_cons] at hrst
    rw [clockRun_cons ps (clockEdge_wait hrst.1 hbusy hrsp (by omega)), ih (k + 1) hrst.2 (by omega)]
    congr 2
    omega

/-- As many edges as remain of its latency complete an executing command. -/
theorem clockRun_finish (hbusy : s.busy = true) (hrsp : s.rspValid = false) (ps : List PortsIn) (k : Nat)
    (hrst : ∀ q ∈ ps, q.rst = false) (hk : k < latency s) (hlen : k + ps.length = latency s) :
    clockRun ps ⟨s, k⟩ = freshClock (executeLatched s) := by
  induction ps generalizing k with
  | nil => simp at hlen; omega
  | cons q ps ih =>
    rw [List.length_cons] at hlen
    rw [List.forall_mem_cons] at hrst
    cases ps with
    | nil => rw [clockRun_singleton, clockEdge_finish hrst.1 hbusy hlen]
    | cons q' ps =>
      have hmore : k + 1 < latency s := by rw [List.length_cons] at hlen; omega
      rw [clockRun_cons _ (clockEdge_wait hrst.1 hbusy hrsp hmore), ih (k + 1) hrst.2 hmore (by omega)]

end Run

/-- Settles O14: after the accepting edge the core waits as the accepted state, and the last edge runs the latched
command, as the transaction does. -/
theorem clockCarriesTransaction : Obligations.ClockCarriesTransaction := by
  unfold Obligations.ClockCarriesTransaction
  intro c p ps hbusy hrst hvalid hlen hps
  have hpos := latency_pos (accept p c.core)
  have haccept := clockEdge_accept hrst hvalid hbusy
  refine ⟨hpos, ?_, fun k hk => ?_⟩
  · rw [clockRun_cons ps haccept, transact_command c.core hrst hvalid]
    exact clockRun_finish rfl rfl ps 0 hps hpos (by omega)
  · have htake : (ps.take k).length = k := by rw [List.length_take]; omega
    rw [clockRun_cons _ haccept,
      clockRun_wait rfl rfl _ 0 (fun q hq => hps q (List.mem_of_mem_take hq)) (by omega), htake, Nat.zero_add]

end Sys2Proof.Proofs
end

section
/-! The operands a command does not use (30_encoding.md R112; 92_eei_decisions.md D33). -/

namespace Sys2Proof.Proofs

open Sys2Proof.Machine

section Operands
variable {s t : State} {c : Construction} {klen : BitVec 6} {ivlen ivlen' : BitVec 5} {ks : KeySize}

/-- The key size a CREATE_SESSION's checks answer is that of its KLEN. -/
theorem keySizeOfBytes_of_createVerdict (h : createVerdict c klen ivlen = .ok ks) :
    keySizeOfBytes klen.toNat = some ks := by
  cases hk : keySizeOfBytes klen.toNat with
  | none => simp [createVerdict, hk] at h
  | some ks' =>
    simp only [createVerdict, hk] at h
    split_ifs at h
    cases h
    rfl

/-- In ECB the checks do not look at IVLEN (47_commands.md R274). -/
theorem createVerdict_ecb (klen : BitVec 6) (ivlen ivlen' : BitVec 5) :
    createVerdict .ecb klen ivlen = createVerdict .ecb klen ivlen' := by
  simp [createVerdict]

/-- The expansion reads the first Nk key words only (30_encoding.md R112). -/
theorem keyExpansion_congr {key key' : Vector Word 8} (rc : Vector Byte 10) (w : Vector Word 60)
    (h : ∀ (j : Nat) (hj : j < 8), j < nkOf ks → key[j] = key'[j]) :
    keyExpansion ks key rc w = keyExpansion ks key' rc w := by
  have htake : key.toList.take (nkOf ks) = key'.toList.take (nkOf ks) := by
    apply List.ext_getElem
    · simp
    · intro j hj _
      simp only [List.length_take, Vector.length_toList, lt_min_iff] at hj
      simpa using h j hj.2 hj.1
  rw [keyExpansion, keyExpansion, htake]

/-- CREATE_SESSION ignores the key words above the key its KLEN names (47_commands.md R273). -/
theorem create_ignores_keyTail {keyl : Vector Word 8} (hks : keySizeOfBytes klen.toNat = some ks)
    (hkey : ∀ (j : Nat) (h : j < 8), j < nkOf ks → keyl[j] = s.keyl[j])
    (h : execCreateSession c klen ivlen s = .next t) :
    execCreateSession c klen ivlen { s with keyl := keyl } = .next { t with keyl := keyl } := by
  obtain ⟨e, hv, rfl⟩ | ⟨ks', hv, ht⟩ := execCreateSession_eq_next h
  · exact execCreateSession_of_error hv
  · cases hks.symm.trans (keySizeOfBytes_of_createVerdict hv)
    obtain ⟨rc, e, hrc, he, rfl⟩ := openSession_eq_ok ht
    exact execCreateSession_of_ok hv hrc ((keyExpansion_congr rc _ hkey).trans he)

/-- An ECB CREATE_SESSION ignores IVLEN and the IV operand (47_commands.md R274). -/
theorem createEcb_ignores_iv (ivl : Block) (h : execCreateSession .ecb klen ivlen s = .next t) :
    execCreateSession .ecb klen ivlen' { s with ivl := ivl } = .next { t with ivl := ivl } := by
  obtain ⟨e, hv, rfl⟩ | ⟨ks, hv, ht⟩ := execCreateSession_eq_next h <;> rw [createVerdict_ecb klen ivlen ivlen'] at hv
  · exact execCreateSession_of_error hv
  · obtain ⟨rc, e, hrc, he, rfl⟩ := openSession_eq_ok ht
    exact execCreateSession_of_ok hv hrc he

/-- CLOSE_SESSION has no operands (47_commands.md R280). -/
theorem close_ignores_operands (keyl : Vector Word 8) (ivl dinl : Block) (h : execCloseSession s = .next t) :
    execCloseSession { s with keyl := keyl, ivl := ivl, dinl := dinl } =
      .next { t with keyl := keyl, ivl := ivl, dinl := dinl } := by
  by_cases hs : s.session = .idle
  · rw [execCloseSession_idle hs] at h
    cases h
    exact execCloseSession_idle hs
  · rw [execCloseSession_session hs] at h
    cases h
    exact execCloseSession_session hs

end Operands

/-- Settles O25: of the key words only those of the key size reach the schedule, in ECB neither the checks nor the
opened state take anything of the IV, and CLOSE_SESSION reads SESSION alone. -/
theorem unusedOperandsIgnored : Obligations.UnusedOperandsIgnored := by
  unfold Obligations.UnusedOperandsIgnored
  exact ⟨fun _ _ _ _ _ _ _ hks hkey h => create_ignores_keyTail hks hkey h,
    fun _ _ _ _ _ ivl h => createEcb_ignores_iv ivl h,
    fun _ _ keyl ivl dinl h => close_ignores_operands keyl ivl dinl h⟩

end Sys2Proof.Proofs
end

section
/-! The operand text of the assembler (30_encoding.md R120). -/

namespace Sys2Proof.Proofs

open Sys2Proof.Machine

/-- The number a byte string writes, its first byte most significant: what `fillPort` shifts into place. -/
def bytesValue (bs : List Byte) : Nat := bs.foldl (fun acc b => 256 * acc + b.toNat) 0

theorem fillPort_eq (width : Nat) (bs : List Byte) :
    fillPort width bs = BitVec.ofNat width (bytesValue bs) <<< (width - 8 * bs.length) := rfl

theorem bytesValue_concat (bs : List Byte) (b : Byte) : bytesValue (bs ++ [b]) = 2 ^ 8 * bytesValue bs + b.toNat := by
  simp [bytesValue]

/-- Bit `i` of the number lies in byte `i / 8` from the end. -/
theorem bytesValue_testBit (bs : List Byte) (i : Nat) (hi : i < 8 * bs.length) :
    (bytesValue bs).testBit i = (bs.getD (bs.length - 1 - i / 8) 0#8).getLsbD (i % 8) := by
  induction bs using List.reverseRecOn generalizing i with
  | nil => simp at hi
  | append_singleton bs b ih =>
    rw [List.length_append, List.length_singleton] at hi ⊢
    rw [bytesValue_concat, Nat.testBit_two_pow_mul_add _ b.isLt]
    split_ifs with hlow
    · have hdiv : i / 8 = 0 := Nat.div_eq_of_lt hlow
      have hmod : i % 8 = i := Nat.mod_eq_of_lt hlow
      simp [hdiv, hmod, BitVec.getLsbD]
    · have hpos : bs.length - 1 - (i - 8) / 8 = bs.length + 1 - 1 - i / 8 := by omega
      have hmod : (i - 8) % 8 = i % 8 := by omega
      have hleft : bs.length + 1 - 1 - i / 8 < bs.length := by omega
      rw [ih (i - 8) (by omega), hpos, hmod, List.getD_append _ _ _ _ hleft]

/-- Bit `j` of byte `n` of a filled port: the byte string's, or 0 where it has ended (30_encoding.md R120). -/
theorem fillPort_getLsbD (m : Nat) (bs : List Byte) (hlen : bs.length ≤ m) (n j : Nat) (hn : n < m) (hj : j < 8) :
    (fillPort (8 * m) bs).getLsbD (8 * (m - 1 - n) + j) = (bs.getD n 0#8).getLsbD j := by
  have hin : 8 * (m - 1 - n) + j < 8 * m := by omega
  rw [fillPort_eq, BitVec.getLsbD_shiftLeft, BitVec.getLsbD_ofNat]
  by_cases hend : n < bs.length
  · have hshift : 8 * (m - 1 - n) + j - (8 * m - 8 * bs.length) = 8 * (bs.length - 1 - n) + j := by omega
    have hpos : bs.length - 1 - (8 * (bs.length - 1 - n) + j) / 8 = n := by omega
    have hmod : (8 * (bs.length - 1 - n) + j) % 8 = j := by omega
    have habove : ¬(8 * (m - 1 - n) + j < 8 * m - 8 * bs.length) := by omega
    have hvalue : 8 * (bs.length - 1 - n) + j < 8 * m := by omega
    rw [hshift, bytesValue_testBit bs _ (by omega), hpos, hmod]
    simp [hin, habove, hvalue]
  · have hbelow : 8 * (m - 1 - n) + j < 8 * m - 8 * bs.length := by omega
    simp [hbelow, List.getElem?_eq_none (not_lt.mp hend)]

/-- Settles O60: `fillPort_getLsbD`, bit by bit of the byte. -/
theorem assemblerFillsPorts : Obligations.AssemblerFillsPorts := by
  unfold Obligations.AssemblerFillsPorts
  intro m bs hlen n hn
  apply BitVec.eq_of_getLsbD_eq
  intro j hj
  rw [BitVec.getLsbD_extractLsb', fillPort_getLsbD m bs hlen n j hn hj]
  simp [hj]

end Sys2Proof.Proofs
end

section
/-! Multiplication by {02} and the round constants (41_round_constants.md R140–R142; 44_diffusion.md R190, R191). -/

namespace Sys2Proof.Proofs

open Sys2Proof.Machine

/-- Bit 8 of a shifted byte is its top bit, so the carry tests of R140 and R190 are one test. -/
theorem shiftedByte_carry (a : Byte) : (a.setWidth 9 <<< 1).getLsbD 8 = a.msb := by
  simp [BitVec.msb_eq_getLsbD_last]

/-- Shifted in 9 bits and cut back, a byte is shifted in 8. -/
theorem shiftedByte_cut (a : Byte) : (a.setWidth 9 <<< 1).setWidth 8 = a <<< 1 := by
  ext j hj
  simp

/-- Doubling within 8 bits: the reduction by 0x11B leaves 0x1B of its low bits (44_diffusion.md R190). -/
theorem xtime_eq (a : Byte) : xtime a = a <<< 1 ^^^ (if a.msb then 0x1B#8 else 0#8) := by
  simp only [xtime, shiftedByte_carry]
  split
  · rw [BitVec.setWidth_xor, shiftedByte_cut]; rfl
  · rw [shiftedByte_cut, BitVec.xor_zero]

/-- The recurrence of R140 doubles: a byte is below 0x80 when its top bit is clear. -/
theorem rconNext_eq_xtime (t : Byte) : rconNext t = xtime t := by
  have htop : t.toNat < 0x80 ↔ t.msb = false := by simp [BitVec.msb_eq_decide]
  cases hmsb : t.msb <;> simp only [rconNext, xtime, htop, shiftedByte_carry, hmsb] <;> rfl

@[simp] theorem xtime_zero : xtime 0#8 = 0#8 := by decide

theorem xtime_xor (a b : Byte) : xtime (a ^^^ b) = xtime a ^^^ xtime b := by
  have hreduce : (if (a ^^^ b).msb then 0x1B#8 else 0#8) =
      (if a.msb then 0x1B#8 else 0#8) ^^^ (if b.msb then 0x1B#8 else 0#8) := by
    rw [BitVec.msb_xor]
    cases a.msb <;> cases b.msb <;> decide
  rw [xtime_eq, xtime_eq a, xtime_eq b, BitVec.shiftLeft_xor_distrib, hreduce]
  ac_rfl

/-- Doubling passes through one turn of the multiplication loop. -/
theorem gmulStep_xtime (b : Byte) (k : Nat) (pa : Byte × Byte) :
    gmulStep b k (pa.map xtime xtime) = (gmulStep b k pa).map xtime xtime := by
  cases hbit : b.getLsbD k <;> simp [gmulStep, hbit, xtime_xor]

/-- {02}·a times b is {02} times a·b. -/
theorem gmul_xtime_left (a b : Byte) : gmul (xtime a) b = xtime (gmul a b) := by
  have hloop := List.foldl_hom (Prod.map xtime xtime) (g₁ := fun pa k => gmulStep b k pa)
    (g₂ := fun pa k => gmulStep b k pa) (l := [0, 1, 2, 3, 4, 5, 6, 7]) (init := (0#8, a))
    fun pa k => gmulStep_xtime b k pa
  rw [Prod.map_apply, xtime_zero] at hloop
  rw [gmul, hloop, Prod.map_fst, gmul]

/-- Below the degree of the field's polynomial, {02}^n is the single bit `n`. -/
theorem xtime_iterate_one (n : Nat) (hn : n < 8) : xtime^[n] 0x01#8 = BitVec.twoPow 8 n := by
  interval_cases n <;> decide

/-- After `n` turns on {01} the product holds the low `n` bits of `b`, and the operand is {02}^n. -/
theorem gmulLoop_one (b : Byte) (n : Nat) (hn : n ≤ 8) :
    ∃ p : Byte, (List.range n).foldl (fun pa k => gmulStep b k pa) (0#8, 0x01#8) = (p, xtime^[n] 0x01#8) ∧
      ∀ j, p.getLsbD j = (decide (j < n) && b.getLsbD j) := by
  induction n with
  | zero => exact ⟨0#8, rfl, by simp⟩
  | succ n ih =>
    obtain ⟨p, hloop, hbits⟩ := ih (by omega)
    have hpow : xtime^[n] 0x01#8 = BitVec.twoPow 8 n := xtime_iterate_one n (by omega)
    refine ⟨_, by rw [List.range_succ, List.foldl_concat, hloop, gmulStep, Function.iterate_succ_apply'], fun j => ?_⟩
    rw [hpow]
    rcases eq_or_ne j n with rfl | hne
    · cases hbit : b.getLsbD j
      · simp [hbit, hbits]
      · simpa [hbit, hbits] using Nat.lt_of_succ_le hn
    · have hlt : j < n + 1 ↔ j < n := by omega
      cases hbit : b.getLsbD n <;> simp [hbits, BitVec.getLsbD_twoPow, hne.symm, hlt]

/-- {01} is the unit: after all eight turns the product is the byte. -/
theorem gmul_one_left (b : Byte) : gmul 0x01#8 b = b := by
  obtain ⟨p, hloop, hbits⟩ := gmulLoop_one b 8 le_rfl
  have hgmul : gmul 0x01#8 b = p := congrArg Prod.fst hloop
  rw [hgmul]
  apply BitVec.eq_of_getLsbD_eq
  intro j hj
  rw [hbits, decide_eq_true hj, Bool.true_and]

theorem gmul_two_left (b : Byte) : gmul 0x02#8 b = xtime b := by
  have htwo : xtime 0x01#8 = 0x02#8 := by decide
  rw [← htwo, gmul_xtime_left, gmul_one_left]

/-- The constants' loop writes the doublings of `t` into its range of entries and keeps the others
(41_round_constants.md R140). -/
theorem rconLoop_eq (count i : Nat) (t : Byte) (rc : Vector Byte 10) (hi : i + count ≤ 10) :
    rconLoop count i t rc =
      .ok (Vector.ofFn fun j => if i ≤ j ∧ j < i + count then xtime^[j + 1 - i] t else rc[j]) := by
  induction count generalizing i t rc with
  | zero => simp [rconLoop, Vector.ext_iff]
  | succ count ih =>
    simp only [rconLoop, writeElem_inside .rc rc i _ (show i < 10 by omega), ok_bind]
    rw [ih (i + 1) _ _ (by omega)]
    congr 1
    ext1 j hj
    simp only [Vector.getElem_ofFn, Fin.getElem_fin, Vector.getElem_set, rconNext_eq_xtime]
    rcases lt_trichotomy i j with hlt | rfl | hgt
    · have hpow : j + 1 - i = (j + 1 - (i + 1)) + 1 := by omega
      have hrange : i + 1 ≤ j ∧ j < i + 1 + count ↔ i ≤ j ∧ j < i + (count + 1) := by omega
      simp only [hrange, hpow, Function.iterate_succ_apply, hlt.ne, if_false]
    · simp
    · simp [hgt.ne', Nat.not_le.mpr hgt, Nat.not_le.mpr (Nat.lt_succ_of_lt hgt)]

/-- A legal length writes the powers of {02} below it and keeps the entries above (41_round_constants.md R140). -/
theorem roundConstants_eq (n : Nat) (rc : Vector Byte 10) (hn : n = 7 ∨ n = 8 ∨ n = 10) :
    roundConstants n rc = .ok (Vector.ofFn fun j => if (j : Nat) < n then xtime^[j] 0x01#8 else rc[j]) := by
  simp only [roundConstants, if_pos hn, writeElem_inside .rc rc 0 _ (Nat.succ_pos 9), ok_bind]
  rw [rconLoop_eq _ _ _ _ (by omega)]
  congr 1
  ext1 j hj
  simp only [Vector.getElem_ofFn, Fin.getElem_fin, Vector.getElem_set]
  cases j with
  | zero =>
    have hpos : 0 < n := by omega
    simp [hpos]
  | succ j =>
    have hend : 1 + (n - 1) = n := by omega
    simp [hend]

/-- Settles O39: `rconNext_eq_xtime` and `gmul_two_left` for the step, `roundConstants_eq` for the table. -/
theorem roundConstantsArePowersOfTwo : Obligations.RoundConstantsArePowersOfTwo := by
  unfold Obligations.RoundConstantsArePowersOfTwo
  constructor
  · intro t
    rw [gmul_two_left]
    exact ⟨rconNext_eq_xtime t, rconNext_eq_xtime t⟩
  · intro n rc hn
    refine ⟨_, roundConstants_eq n rc hn, fun i hi => ?_⟩
    simp

/-- Settles O38: the powers of {02} of `roundConstants_eq`, evaluated. -/
theorem roundConstantTables : Obligations.RoundConstantTables := by
  unfold Obligations.RoundConstantTables
  rw [roundConstants_eq 10 _ (by decide), roundConstants_eq 8 _ (by decide), roundConstants_eq 7 _ (by decide)]
  decide

end Sys2Proof.Proofs
end

section
/-! Multiplication in GF(2^8): the ring laws and the inverses (44_diffusion.md R191, R192). -/

namespace Sys2Proof.Proofs

open Sys2Proof.Machine

/-- A property of the bytes that {02} and addition keep passes from `a` to every multiple of `a`: the loop of R191
does nothing else. -/
theorem gmul_induction {P : Byte → Prop} (zero : P 0x00#8) (double : ∀ a, P a → P (xtime a))
    (add : ∀ a b, P a → P b → P (a ^^^ b)) {a : Byte} (ha : P a) (b : Byte) : P (gmul a b) := by
  suffices hloop : ∀ (ks : List Nat) (pa : Byte × Byte), P pa.1 ∧ P pa.2 →
      P (ks.foldl (fun pa k => gmulStep b k pa) pa).1 from hloop _ _ ⟨zero, ha⟩
  intro ks
  induction ks with
  | nil => exact fun _ hpa => hpa.1
  | cons k ks ih =>
    rintro ⟨p, a⟩ ⟨hp, ha⟩
    refine ih _ ⟨?_, double a ha⟩
    simp only [gmulStep]
    split
    · exact add p a hp ha
    · exact hp

/-- Every byte comes from {01} by doubling and adding. -/
theorem byte_induction {P : Byte → Prop} (zero : P 0x00#8) (one : P 0x01#8) (double : ∀ a, P a → P (xtime a))
    (add : ∀ a b, P a → P b → P (a ^^^ b)) (b : Byte) : P b :=
  gmul_one_left b ▸ gmul_induction zero double add one b

/-- Addition of what two multiplication loops hold: the products and the shifted operands. -/
def loopXor (pa qc : Byte × Byte) : Byte × Byte := (pa.1 ^^^ qc.1, pa.2 ^^^ qc.2)

/-- Addition passes through one turn of the multiplication loop. -/
theorem gmulStep_loopXor (b : Byte) (k : Nat) (pa qc : Byte × Byte) :
    gmulStep b k (loopXor pa qc) = loopXor (gmulStep b k pa) (gmulStep b k qc) := by
  cases hbit : b.getLsbD k
  · simp [gmulStep, loopXor, hbit, xtime_xor]
  · simp only [gmulStep, loopXor, hbit, xtime_xor, if_true, Prod.mk.injEq, and_true]
    ac_rfl

theorem gmul_xor_left (a c b : Byte) : gmul (a ^^^ c) b = gmul a b ^^^ gmul c b := by
  have hloop := List.foldl_hom₂ [0, 1, 2, 3, 4, 5, 6, 7] loopXor (fun pa k => gmulStep b k pa)
    (fun pa k => gmulStep b k pa) (fun pa k => gmulStep b k pa) (0x00#8, a) (0x00#8, c)
    fun pa qc k => (gmulStep_loopXor b k pa qc).symm
  rw [loopXor, BitVec.xor_self] at hloop
  rw [gmul, hloop, loopXor, gmul, gmul]

@[simp] theorem gmul_zero_left (b : Byte) : gmul 0x00#8 b = 0x00#8 :=
  gmul_induction (P := (· = 0x00#8)) rfl (fun _ ha => ha ▸ xtime_zero) (fun _ _ ha hb => by rw [ha, hb]; rfl) rfl b

theorem gmul_zero_right (a : Byte) : gmul a 0x00#8 = 0x00#8 := by
  induction a using byte_induction with
  | zero | one => decide
  | double a ih => rw [gmul_xtime_left, ih, xtime_zero]
  | add a c iha ihc => rw [gmul_xor_left, iha, ihc, BitVec.xor_self]

theorem gmul_one_right (a : Byte) : gmul a 0x01#8 = a := by
  induction a using byte_induction with
  | zero | one => decide
  | double a ih => rw [gmul_xtime_left, ih]
  | add a c iha ihc => rw [gmul_xor_left, iha, ihc]

theorem gmul_xtime_right (a b : Byte) : gmul a (xtime b) = xtime (gmul a b) := by
  induction a using byte_induction with
  | zero => rw [gmul_zero_left, gmul_zero_left, xtime_zero]
  | one => rw [gmul_one_left, gmul_one_left]
  | double a ih => rw [gmul_xtime_left, gmul_xtime_left, ih]
  | add a c iha ihc => rw [gmul_xor_left, gmul_xor_left, iha, ihc, xtime_xor]

theorem gmul_xor_right (a b c : Byte) : gmul a (b ^^^ c) = gmul a b ^^^ gmul a c := by
  induction a using byte_induction with
  | zero => simp
  | one => simp only [gmul_one_left]
  | double a ih => simp only [gmul_xtime_left, ih, xtime_xor]
  | add a d iha ihd =>
    simp only [gmul_xor_left, iha, ihd]
    ac_rfl

theorem gmul_comm (a b : Byte) : gmul a b = gmul b a := by
  induction a using byte_induction with
  | zero => rw [gmul_zero_left, gmul_zero_right]
  | one => rw [gmul_one_left, gmul_one_right]
  | double a ih => rw [gmul_xtime_left, gmul_xtime_right, ih]
  | add a c iha ihc => rw [gmul_xor_left, gmul_xor_right, iha, ihc]

theorem gmul_assoc (a b c : Byte) : gmul (gmul a b) c = gmul a (gmul b c) := by
  induction a using byte_induction with
  | zero => simp only [gmul_zero_left]
  | one => simp only [gmul_one_left]
  | double a ih => simp only [gmul_xtime_left, ih]
  | add a d iha ihd => simp only [gmul_xor_left, iha, ihd]

/-- A byte has at most one inverse: y = y·(x·z) = (x·y)·z = z. -/
theorem gmul_inverse_unique {x y z : Byte} (hy : gmul x y = 0x01#8) (hz : gmul x z = 0x01#8) : y = z :=
  calc y = gmul y (gmul x z) := by rw [hz, gmul_one_right]
    _ = gmul (gmul x y) z := by rw [← gmul_assoc, gmul_comm y x]
    _ = z := by rw [hy, gmul_one_left]

end Sys2Proof.Proofs
end

section
/-! The substitution tables (42_substitution.md R150–R158). -/

namespace Sys2Proof.Proofs

open Sys2Proof.Machine

/-- The affine map of R158 undone: the table entry of `x` gives back inv(x). -/
def sboxUnaffine (b : Byte) : Byte := b.rotateLeft 1 ^^^ b.rotateLeft 3 ^^^ b.rotateLeft 6 ^^^ 0x05#8

@[simp] theorem sboxAffine_sboxUnaffine (b : Byte) : sboxAffine (sboxUnaffine b) = b := by
  revert b
  decide

/-- Entry by entry, what the affine map of R158 was applied to is the inverse of the index. -/
theorem gmul_sboxUnaffine_sboxEntry : ∀ x : Byte, x ≠ 0x00#8 → gmul x (sboxUnaffine (sboxEntry x)) = 0x01#8 := by
  decide

/-- Entry by entry, the second table undoes the first (42_substitution.md R151). -/
@[simp] theorem invSboxEntry_sboxEntry (b : Byte) : invSboxEntry (sboxEntry b) = b := by
  revert b
  decide

/-- The first table undoes the second: it reaches every byte, since it is injective on a finite type. -/
@[simp] theorem sboxEntry_invSboxEntry (b : Byte) : sboxEntry (invSboxEntry b) = b :=
  have hinv : Function.LeftInverse invSboxEntry sboxEntry := invSboxEntry_sboxEntry
  hinv.rightInverse_of_surjective (Finite.surjective_of_injective hinv.injective) b

theorem sboxEntry_eq_iff (x y : Byte) : sboxEntry x = y ↔ invSboxEntry y = x := by
  constructor
  · rintro rfl
    exact invSboxEntry_sboxEntry x
  · rintro rfl
    exact sboxEntry_invSboxEntry y

/-- A byte with an inverse `y` has the entry A(y) (42_substitution.md R158). -/
theorem sboxEntry_of_inverse {x y : Byte} (hy : gmul x y = 0x01#8) : sboxEntry x = sboxAffine y := by
  have hx : x ≠ 0x00#8 := by
    rintro rfl
    rw [gmul_zero_left] at hy
    exact absurd hy (by decide)
  have hentry : y = sboxUnaffine (sboxEntry x) := gmul_inverse_unique hy (gmul_sboxUnaffine_sboxEntry x hx)
  rw [hentry, sboxAffine_sboxUnaffine]

/-- Settles O43: the table holds the inverses under the affine map, and `gmul_inverse_unique` says there are no
others. -/
theorem sBoxIsAlgebraic : Obligations.SBoxIsAlgebraic := by
  unfold Obligations.SBoxIsAlgebraic
  refine ⟨by decide, fun x y => sboxEntry_of_inverse, fun x hx => ?_, sboxEntry_eq_iff⟩
  have hinverse := gmul_sboxUnaffine_sboxEntry x hx
  exact ⟨_, hinverse, fun z hz => gmul_inverse_unique hz hinverse⟩

theorem invSubBytes_subBytes (s : CState) : invSubBytes (subBytes s) = s :=
  cstate_ext fun r c => by simp [invSubBytes, subBytes, invSubByte, subByte]

theorem subBytes_invSubBytes (s : CState) : subBytes (invSubBytes s) = s :=
  cstate_ext fun r c => by simp [invSubBytes, subBytes, invSubByte, subByte]

/-- Settles O42: byte by byte the two tables undo each other. -/
theorem substitutionTablesInverse : Obligations.SubstitutionTablesInverse := by
  unfold Obligations.SubstitutionTablesInverse
  exact ⟨fun b => ⟨invSboxEntry_sboxEntry b, sboxEntry_invSboxEntry b⟩,
    fun s => ⟨invSubBytes_subBytes s, subBytes_invSubBytes s⟩⟩

end Sys2Proof.Proofs
end

section
/-! The words of the key schedule (43_key_schedule.md R171–R176; 10_state.md R35). -/

namespace Sys2Proof.Proofs

open Sys2Proof.Machine

/-- What a write of a list leaves at each index: the list's element where the list reaches, else the old element. -/
theorem memWrite_getElem {α : Type} {n : Nat} {sp : Space} : ∀ {xs : List α} {v v' : Vector α n} {i : Nat},
    memWrite sp v i xs = .ok v' → ∀ (j : Nat) (hj : j < n),
      v'[j] = if i ≤ j then xs.getD (j - i) v[j] else v[j]
  | [], v, v', i, hw, j, hj => by
    cases Except.ok.inj hw
    simp
  | x :: xs, v, v', i, hw, j, hj => by
    obtain ⟨v₁, hhead, htail⟩ := bind_eq_ok hw
    obtain ⟨hi, hsame, hother⟩ := writeElem_eq_ok hhead
    rw [memWrite_getElem htail j hj]
    obtain hlt | rfl | hgt := Nat.lt_trichotomy j i
    · rw [if_neg (by omega), if_neg (by omega), hother j hj (by omega)]
    · rw [if_neg (by omega), if_pos le_rfl, hsame, Nat.sub_self, List.getD_cons_zero]
    · rw [if_pos (by omega), if_pos (by omega), hother j hj (by omega),
        show j - i = (j - (i + 1)) + 1 by omega, List.getD_cons_succ]

section Schedule
variable {ks : KeySize} {key : Vector Word 8} {rc : Vector Byte 10} {w : Vector Word 60} {n : Nat}

/-- The word of index `i` from the words one and Nk before it, by the case its index selects
(43_key_schedule.md R172–R176). -/
def scheduleWord (ks : KeySize) (rc : Vector Byte 10) (i : Nat) (prev back : Word) : Word :=
  if nkOf ks = 8 ∧ i % 8 = 4 then subWord prev ^^^ back
  else if i % nkOf ks = 0 then
    (subWord (rotWord prev) ^^^ word (rc.toList.getD (i / nkOf ks - 1) 0#8) 0#8 0#8 0#8) ^^^ back
  else prev ^^^ back

/-- The expander's tests on `i - 4` and `i - Nk` select by `i` itself. -/
theorem expandWord_eq_scheduleWord (hn : nkOf ks ≤ n) (hlen : n < scheduleLen ks) (h60 : n < 60) :
    expandWord ks rc w n = .ok (scheduleWord ks rc n w[n - 1] w[n - nkOf ks]) := by
  have hc : n / nkOf ks - 1 < 10 := constantIndex_lt ks n hlen
  have hspecial : (nkOf ks = 8 ∧ (n - 4) % nkOf ks = 0) ↔ (nkOf ks = 8 ∧ n % 8 = 4) :=
    and_congr_right fun h8 => by rw [h8] at hn ⊢; omega
  have hconst : rc.toList.getD (n / nkOf ks - 1) 0#8 = rc[n / nkOf ks - 1] := by
    simp [hc]
  simp only [expandWord_eq ks rc w n hc h60 hn, scheduleWord, hspecial, ← Nat.mod_eq_sub_mod hn, hconst]

/-- The constant's index stays below Nrc (43_key_schedule.md R171). -/
theorem constantIndex_lt_nrcOf (hlen : n < scheduleLen ks) (hn : nkOf ks ≤ n) : n / nkOf ks - 1 < nrcOf ks := by
  cases ks <;> simp [scheduleLen, nrOf, nkOf, nrcOf] at * <;> omega

/-- The words below `n` are those of the schedule of `key`, and the words from `n` on are still 0. -/
structure ScheduleUpTo (ks : KeySize) (key : Vector Word 8) (rc : Vector Byte 10) (w : Vector Word 60) (n : Nat) :
    Prop where
  keyWords : ∀ (i : Nat) (_ : i < 8), i < nkOf ks → w[i] = key[i]
  later : ∀ (i : Nat) (_ : i < 60), nkOf ks ≤ i → i < n → w[i] = scheduleWord ks rc i w[i - 1] w[i - nkOf ks]
  above : ∀ (i : Nat) (_ : i < 60), n ≤ i → w[i] = 0#32

/-- Writing the schedule's word at the first index not yet written moves that index on: a word depends on earlier
words only. -/
theorem scheduleUpTo_set (hw : ScheduleUpTo ks key rc w n) (hn : nkOf ks ≤ n) (h60 : n < 60) :
    ScheduleUpTo ks key rc (w.set n (scheduleWord ks rc n w[n - 1] w[n - nkOf ks])) (n + 1) := by
  have hnk := nkOf_cases ks
  refine ⟨fun i h8 hi => ?_, fun i hi hni hlt => ?_, fun i hi hle => ?_⟩
  · rw [Vector.getElem_set_ne _ _ (by omega)]
    exact hw.keyWords i h8 hi
  · rw [Vector.getElem_set_ne (j := i - 1) _ _ (by omega), Vector.getElem_set_ne (j := i - nkOf ks) _ _ (by omega)]
    obtain rfl | hne := eq_or_ne n i
    · rw [Vector.getElem_set_self]
    · rw [Vector.getElem_set_ne _ _ hne]
      exact hw.later i hi hni (by omega)
  · rw [Vector.getElem_set_ne _ _ (by omega)]
    exact hw.above i hi (by omega)

/-- The key words, written over zero words, are the schedule up to Nk. -/
theorem scheduleUpTo_keyWords (hw : memWrite .w zeroWords 0 (key.toList.take (nkOf ks)) = .ok w) :
    ScheduleUpTo ks key rc w (nkOf ks) := by
  have hword := memWrite_getElem hw
  simp only [Nat.zero_le, if_true, Nat.sub_zero] at hword
  refine ⟨fun i h8 hi => ?_, fun i _ hni hlt => absurd hni (Nat.not_le.mpr hlt), fun i hi hni => ?_⟩
  · rw [hword i (by omega)]
    simp [h8, hi]
  · rw [hword i hi]
    simp [hni, zeroWords]

/-- What every state of phase EXPAND keeps: the words below KI are written, and at the end all of them. -/
inductive ExpanderOk (ks : KeySize) (key : Vector Word 8) (rc : Vector Byte 10) : Expander → Prop where
  | running (ki : BitVec 6) (w : Vector Word 60) (first : nkOf ks ≤ ki.toNat) (last : ki.toNat < scheduleLen ks)
      (words : ScheduleUpTo ks key rc w ki.toNat) : ExpanderOk ks key rc ⟨.expand, ki, w⟩
  | finished (ki : BitVec 6) (w : Vector Word 60) (words : ScheduleUpTo ks key rc w (scheduleLen ks)) :
      ExpanderOk ks key rc ⟨.done, ki, w⟩

/-- One step of phase EXPAND keeps the schedule (43_key_schedule.md R170, R180). -/
theorem expandStep_keeps {e e' : Expander} (hok : ExpanderOk ks key rc e) (hstep : expandStep ks rc e = .ok e') :
    ExpanderOk ks key rc e' := by
  cases hok with
  | finished ki w words => cases hstep
  | running ki w first last words =>
    have h60 : ki.toNat < 60 := last.trans_le (scheduleLen_le ks)
    have hnext := scheduleUpTo_set words first h60
    obtain ⟨x, hx, heq⟩ := expandStep_eq ks rc ⟨.expand, ki, w⟩ rfl first last
    cases (expandWord_eq_scheduleWord first last h60).symm.trans hx
    cases heq.symm.trans hstep
    dsimp only
    split
    · next hend => exact .finished _ _ (by rwa [hend] at hnext)
    · next hmore =>
      have hki : (ki + 1).toNat = ki.toNat + 1 := BitVec.toNat_add_of_lt (by simp; omega)
      exact .running _ _ (by omega) (by omega) (by rwa [hki])

theorem expandSteps_keeps : ∀ (count : Nat) {e e' : Expander}, ExpanderOk ks key rc e →
    expandSteps ks rc count e = .ok e' → ExpanderOk ks key rc e'
  | 0, _, _, hok, hsteps => Except.ok.inj hsteps ▸ hok
  | count + 1, _, _, hok, hsteps => by
    obtain ⟨e₁, hfirst, hrest⟩ := bind_eq_ok hsteps
    exact expandSteps_keeps count (expandStep_keeps hok hfirst) hrest

/-- A completed expansion holds the whole schedule of its key. -/
theorem keyExpansion_schedule {e : Expander} (he : keyExpansion ks key rc zeroWords = .ok e) (hdone : e.seq = .done) :
    ScheduleUpTo ks key rc e.w (scheduleLen ks) := by
  obtain ⟨w, hw, hsteps⟩ := bind_eq_ok he
  have hki : (BitVec.ofNat 6 (nkOf ks)).toNat = nkOf ks := by cases ks <;> rfl
  have hlen : nkOf ks < scheduleLen ks := by cases ks <;> decide
  have hstart : ExpanderOk ks key rc ⟨.expand, BitVec.ofNat 6 (nkOf ks), w⟩ :=
    .running _ _ hki.ge (hki.trans_lt hlen) (hki.symm ▸ scheduleUpTo_keyWords hw)
  cases expandSteps_keeps _ hstart hsteps with
  | running => cases hdone
  | finished _ _ words => exact words

end Schedule

/-- Settles O40: every step of the expansion keeps `ScheduleUpTo`, and it ends at the schedule's last index. -/
theorem keyExpansionRecurrence : Obligations.KeyExpansionRecurrence := by
  unfold Obligations.KeyExpansionRecurrence
  intro ks key rc
  obtain ⟨e, he, hdone, -⟩ := keyExpansion_completes ks key rc zeroWords
  obtain ⟨keyWords, later, above⟩ := keyExpansion_schedule he hdone
  exact ⟨e, he, keyWords, above, fun i hi hn hlen => ⟨constantIndex_lt_nrcOf hlen hn, later i hi hn hlen⟩⟩

end Sys2Proof.Proofs
end

section
/-! The field product and the carry-less product (44_diffusion.md R191, R192). -/

namespace Sys2Proof.Proofs

open Sys2Proof.Machine

/-- One turn of the reduction: bit `k` is cleared by 0x11B shifted under it. -/
def reduceStep (p : BitVec 15) (k : Nat) : BitVec 15 := if p.getLsbD k then p ^^^ (0x11B#15 <<< (k - 8)) else p

/-- One turn of the carry-less product. -/
def clmulStep (a b : Byte) (p : BitVec 15) (k : Nat) : BitVec 15 :=
  if b.getLsbD k then p ^^^ (a.setWidth 15 <<< k) else p

theorem reduce11B_eq_foldl (p : BitVec 15) :
    reduce11B p = ([14, 13, 12, 11, 10, 9, 8].foldl reduceStep p).setWidth 8 := rfl

theorem clmul_eq_foldl (a b : Byte) : clmul a b = (List.range 8).foldl (clmulStep a b) 0#15 := rfl

theorem reduceStep_xor (p q : BitVec 15) (k : Nat) :
    reduceStep (p ^^^ q) k = reduceStep p k ^^^ reduceStep q k := by
  cases hp : p.getLsbD k <;> cases hq : q.getLsbD k <;>
    simp only [reduceStep, BitVec.getLsbD_xor, hp, hq, Bool.xor_self, Bool.xor_false, Bool.false_xor, if_true,
      Bool.false_eq_true, if_false]
  · ac_rfl
  · ac_rfl
  · rw [BitVec.xor_comm q, BitVec.xor_assoc, ← BitVec.xor_assoc _ _ q, BitVec.xor_self, BitVec.zero_xor]

theorem reduce11B_xor (p q : BitVec 15) : reduce11B (p ^^^ q) = reduce11B p ^^^ reduce11B q := by
  have hloop := List.foldl_hom₂ [14, 13, 12, 11, 10, 9, 8] (fun p q => p ^^^ q) reduceStep reduceStep reduceStep p q
    fun p q k => (reduceStep_xor p q k).symm
  simp only [reduce11B_eq_foldl, hloop, BitVec.setWidth_xor]

theorem reduce11B_zero : reduce11B 0#15 = 0#8 := by decide

/-- A shift moves a turn of the reduction up by one bit. -/
theorem reduceStep_shiftLeft (p : BitVec 15) (k : Nat) (h8 : 8 < k) (h15 : k < 15) :
    reduceStep (p <<< 1) k = reduceStep p (k - 1) <<< 1 := by
  have hbit : (p <<< 1).getLsbD k = p.getLsbD (k - 1) := by
    rw [BitVec.getLsbD_shiftLeft, decide_eq_true h15, decide_eq_false (by omega), Bool.not_false, Bool.true_and,
      Bool.true_and]
  have hpoly : 0x11B#15 <<< (k - 8) = 0x11B#15 <<< (k - 1 - 8) <<< 1 := by
    rw [← BitVec.shiftLeft_add, show k - 1 - 8 + 1 = k - 8 by omega]
  simp only [reduceStep, hbit, hpoly]
  split
  · rw [BitVec.shiftLeft_xor_distrib]
  · rfl

/-- The last turn on a shifted product, cut to 8 bits, is a doubling. -/
theorem reduceStep_eight_shiftLeft (p : BitVec 15) : (reduceStep (p <<< 1) 8).setWidth 8 = xtime (p.setWidth 8) := by
  have hcarry : (p <<< 1).getLsbD 8 = (p.setWidth 8).msb := by simp [BitVec.msb_eq_getLsbD_last]
  have hcut : (p <<< 1).setWidth 8 = p.setWidth 8 <<< 1 := by
    ext j hj
    simp
  rw [xtime_eq, reduceStep, hcarry]
  split
  · rw [BitVec.setWidth_xor, hcut]; rfl
  · rw [hcut, BitVec.xor_zero]

/-- Reduction turns a shift that loses no bit into a doubling. -/
theorem reduce11B_shiftLeft_one (p : BitVec 15) (htop : p.getLsbD 14 = false) :
    reduce11B (p <<< 1) = xtime (reduce11B p) := by
  have hfirst : reduceStep p 14 = p := by rw [reduceStep, htop, if_neg Bool.false_ne_true]
  simp (disch := decide) only [reduce11B_eq_foldl, List.foldl_cons, List.foldl_nil, hfirst, reduceStep_shiftLeft,
    reduceStep_eight_shiftLeft, Nat.reduceSub]

/-- A byte is its own remainder: no bit stands above its eight. -/
theorem reduce11B_setWidth (a : Byte) : reduce11B (a.setWidth 15) = a := by
  have hbit : ∀ k, 8 ≤ k → reduceStep (a.setWidth 15) k = a.setWidth 15 := fun k hk => by
    simp [reduceStep, BitVec.getLsbD_of_ge a k hk]
  simp (disch := decide) only [reduce11B_eq_foldl, List.foldl_cons, List.foldl_nil, hbit]
  simp

/-- The remainder of `a` times the k-th power of {02}: each doubling reduces one shift. -/
theorem reduce11B_shiftLeft (a : Byte) (k : Nat) (hk : k < 8) : reduce11B (a.setWidth 15 <<< k) = xtime^[k] a := by
  induction k with
  | zero => simpa using reduce11B_setWidth a
  | succ k ih =>
    have htop : (a.setWidth 15 <<< k).getLsbD 14 = false := by
      simp [BitVec.getLsbD_of_ge a (14 - k) (by omega)]
    rw [BitVec.shiftLeft_add, reduce11B_shiftLeft_one _ htop, ih (by omega), Function.iterate_succ_apply']

/-- After `n` turns the shift-and-add loop holds the remainder of the carry-less product so far. -/
theorem gmulLoop_eq_reduce11B (a b : Byte) (n : Nat) (hn : n ≤ 8) :
    (List.range n).foldl (fun pa k => gmulStep b k pa) (0#8, a) =
      (reduce11B ((List.range n).foldl (clmulStep a b) 0#15), xtime^[n] a) := by
  induction n with
  | zero => simp [reduce11B_zero]
  | succ n ih =>
    rw [List.range_succ, List.foldl_concat, List.foldl_concat, ih (by omega), gmulStep, clmulStep,
      Function.iterate_succ_apply']
    split
    · rw [reduce11B_xor, reduce11B_shiftLeft a n (by omega)]
    · rfl

/-- Settles O44: `gmulLoop_eq_reduce11B` after all eight turns. -/
theorem gmulIsReducedCarrylessProduct : Obligations.GmulIsReducedCarrylessProduct := by
  unfold Obligations.GmulIsReducedCarrylessProduct
  intro a b
  rw [clmul_eq_foldl]
  exact congrArg Prod.fst (gmulLoop_eq_reduce11B a b 8 le_rfl)

/-- Settles O45: the laws proved by `byte_induction`. -/
theorem fieldLaws : Obligations.FieldLaws := by
  unfold Obligations.FieldLaws
  exact ⟨gmul_comm, gmul_assoc, gmul_xor_right, fun a => ⟨gmul_one_left a, gmul_zero_left a⟩⟩

theorem gmul_three_left (a : Byte) : gmul 0x03#8 a = xtime a ^^^ a := by
  have hthree : 0x03#8 = 0x02#8 ^^^ 0x01#8 := by decide
  rw [hthree, gmul_xor_left, gmul_two_left, gmul_one_left]

theorem gmul_four_left (a : Byte) : gmul 0x04#8 a = xtime (xtime a) := by
  have hdouble : 0x04#8 = xtime 0x02#8 := by decide
  rw [hdouble, gmul_xtime_left, gmul_two_left]

theorem gmul_eight_left (a : Byte) : gmul 0x08#8 a = xtime (xtime (xtime a)) := by
  have hdouble : 0x08#8 = xtime 0x04#8 := by decide
  rw [hdouble, gmul_xtime_left, gmul_four_left]

/-- Settles O46: each constant is a sum of powers of {02}, and the product distributes over it. -/
theorem xtimeConstants : Obligations.XtimeConstants := by
  unfold Obligations.XtimeConstants
  intro a
  have h9 : 0x09#8 = 0x08#8 ^^^ 0x01#8 := by decide
  have hB : 0x0B#8 = 0x08#8 ^^^ 0x02#8 ^^^ 0x01#8 := by decide
  have hD : 0x0D#8 = 0x08#8 ^^^ 0x04#8 ^^^ 0x01#8 := by decide
  have hE : 0x0E#8 = 0x08#8 ^^^ 0x04#8 ^^^ 0x02#8 := by decide
  simp only [h9, hB, hD, hE, gmul_xor_left, gmul_one_left, gmul_two_left, gmul_three_left, gmul_four_left,
    gmul_eight_left, and_self]

end Sys2Proof.Proofs
end

section
/-! Row rotation, column mixing and the layout (44_diffusion.md R194–R202). -/

namespace Sys2Proof.Proofs

open Sys2Proof.Machine

@[simp] theorem shiftRows_getElem (s : CState) (r c : Fin 4) :
    (shiftRows s)[r.val][c.val] = s[r.val][(c + r).val] := by
  simp [shiftRows]

@[simp] theorem invShiftRows_getElem (s : CState) (r c : Fin 4) :
    (invShiftRows s)[r.val][c.val] = s[r.val][(c - r).val] := by
  simp [invShiftRows]

theorem invShiftRows_shiftRows (s : CState) : invShiftRows (shiftRows s) = s :=
  cstate_ext fun r c => by simp

theorem shiftRows_invShiftRows (s : CState) : shiftRows (invShiftRows s) = s :=
  cstate_ext fun r c => by simp

theorem shiftRows_row_zero (s : CState) : (shiftRows s)[0] = s[0] :=
  Vector.ext fun c hc => by simpa using shiftRows_getElem s 0 ⟨c, hc⟩

theorem invShiftRows_row_zero (s : CState) : (invShiftRows s)[0] = s[0] :=
  Vector.ext fun c hc => by simpa using invShiftRows_getElem s 0 ⟨c, hc⟩

/-- Settles O47: a rotated row at each column; the inverse at the rotated column, where the two rotations cancel. -/
theorem rowRotations : Obligations.RowRotations := by
  unfold Obligations.RowRotations
  refine ⟨fun s r c => ⟨?_, ?_, shiftRows_row_zero s, invShiftRows_row_zero s⟩, by decide, by decide, by decide⟩
  · rw [shiftRows_getElem]; rfl
  · have hright := invShiftRows_getElem s r (c + r)
    simp only [add_sub_cancel_right] at hright
    exact hright

@[simp] theorem mixBy_getElem (m s : CState) (r c : Nat) (hr : r < 4) (hc : c < 4) :
    (mixBy m s)[r][c] =
      gmul m[r][0] s[0][c] ^^^ gmul m[r][1] s[1][c] ^^^ gmul m[r][2] s[2][c] ^^^ gmul m[r][3] s[3][c] := by
  simp [mixBy]

/-- Mixing by two matrices in turn is mixing by their product: matrix multiplication is associative. -/
theorem mixBy_mixBy (m n s : CState) : mixBy m (mixBy n s) = mixBy (mixBy m n) s :=
  cstate_ext fun r c => by
    simp only [mixBy_getElem, gmul_xor_left, gmul_xor_right, gmul_assoc]
    ac_rfl

/-- The identity matrix of GF(2^8). -/
def identityMatrix : CState := matrix fun r c => if r = c then 0x01#8 else 0x00#8

theorem identityMatrix_mixBy (s : CState) : mixBy identityMatrix s = s := by
  refine cstate_ext fun r c => ?_
  fin_cases r <;> simp [identityMatrix, gmul_one_left]

theorem invMixMatrix_mixBy_mixMatrix : mixBy invMixMatrix mixMatrix = identityMatrix := by decide

theorem mixMatrix_mixBy_invMixMatrix : mixBy mixMatrix invMixMatrix = identityMatrix := by decide

theorem invMixColumns_mixColumns (s : CState) : invMixColumns (mixColumns s) = s := by
  rw [invMixColumns, mixColumns, mixBy_mixBy, invMixMatrix_mixBy_mixMatrix, identityMatrix_mixBy]

theorem mixColumns_invMixColumns (s : CState) : mixColumns (invMixColumns s) = s := by
  rw [mixColumns, invMixColumns, mixBy_mixBy, mixMatrix_mixBy_invMixMatrix, identityMatrix_mixBy]

/-- Settles O49: the rotations cancel, and so do the matrices, whose products are the identity. -/
theorem diffusionUndone : Obligations.DiffusionUndone := by
  unfold Obligations.DiffusionUndone
  exact ⟨fun s => ⟨invShiftRows_shiftRows s, shiftRows_invShiftRows s⟩,
    fun s => ⟨invMixColumns_mixColumns s, mixColumns_invMixColumns s⟩, invMixMatrix_mixBy_mixMatrix⟩

/-- The sum of a row of a matrix. -/
def rowSum (m : CState) (r : Fin 4) : Byte := m[r.val][0] ^^^ m[r.val][1] ^^^ m[r.val][2] ^^^ m[r.val][3]

/-- A matrix whose rows sum to {01} leaves a column of four equal bytes as it is. -/
theorem mixBy_equalColumn {m s : CState} {c : Nat} (hc : c < 4) (hm : ∀ r, rowSum m r = 0x01#8)
    (h01 : s[0][c] = s[1][c]) (h12 : s[1][c] = s[2][c]) (h23 : s[2][c] = s[3][c]) (r : Nat) (hr : r < 4) :
    (mixBy m s)[r][c] = s[r][c] := by
  have hcolumn : s[r][c] = s[3][c] := by interval_cases r <;> simp only [h01, h12, h23]
  rw [mixBy_getElem, h01, h12, h23, hcolumn, ← gmul_xor_left, ← gmul_xor_left, ← gmul_xor_left]
  exact (congrArg (gmul · s[3][c]) (hm ⟨r, hr⟩)).trans (gmul_one_left _)

theorem mixMatrix_rowSum : ∀ r, rowSum mixMatrix r = 0x01#8 := by decide

theorem invMixMatrix_rowSum : ∀ r, rowSum invMixMatrix r = 0x01#8 := by decide

/-- Settles O48: the rows of the two matrices, read off `mixBy_getElem`. -/
theorem columnMixing : Obligations.ColumnMixing := by
  unfold Obligations.ColumnMixing
  refine ⟨fun s c hc => ?_, fun s c hc => ?_, fun s c hc h01 h12 h23 r hr => ⟨?_, ?_⟩, by decide, by decide⟩
  · simp [mixColumns, mixMatrix, gmul_one_left, gmul_two_left, gmul_three_left]
  · simp [invMixColumns, invMixMatrix]
  · exact mixBy_equalColumn hc mixMatrix_rowSum h01 h12 h23 r hr
  · exact mixBy_equalColumn hc invMixMatrix_rowSum h01 h12 h23 r hr

/-- A swap of two bytes, read at an index: the block at the swapped index. -/
theorem swapBytes_getElem (buf : Block) (i j k : Fin 16) :
    (swapBytes buf i j)[k.val] = buf[(Equiv.swap i j k).val] := by
  obtain rfl | hj := eq_or_ne k j
  · simp [swapBytes]
  · obtain rfl | hi := eq_or_ne k i
    · simp [swapBytes, Fin.val_ne_of_ne hj.symm]
    · simp [swapBytes, Fin.val_ne_of_ne hj.symm, Fin.val_ne_of_ne hi.symm, Equiv.swap_apply_of_ne_of_ne hi hj]

/-- The six swaps of R200 exchange the quotient and the remainder of an index by 4. -/
theorem transposeSwaps_apply : ∀ k : Fin 16,
    (Equiv.swap (1 : Fin 16) 4 (Equiv.swap 2 8 (Equiv.swap 3 12 (Equiv.swap 6 9 (Equiv.swap 7 13
      (Equiv.swap 11 14 k)))))).val = 4 * (k.val % 4) + k.val / 4 := by decide

@[simp] theorem transpose_getElem (buf : Block) (k : Nat) (hk : k < 16) :
    (transpose buf)[k] = buf[4 * (k % 4) + k / 4] := by
  have hswaps := transposeSwaps_apply ⟨k, hk⟩
  simp only [← hswaps, transpose, List.foldl_cons, List.foldl_nil, swapBytes_getElem _ _ _ ⟨k, hk⟩,
    swapBytes_getElem]

theorem transpose_transpose (buf : Block) : transpose (transpose buf) = buf := by
  refine block_ext fun k => ?_
  have hk : 4 * ((4 * (k.val % 4) + k.val / 4) % 4) + (4 * (k.val % 4) + k.val / 4) / 4 = k.val := by omega
  simp only [transpose_getElem, hk]

theorem stateOfFlat_transpose (buf : Block) : stateOfFlat (transpose buf) = loadState buf := by
  refine cstate_ext fun r c => ?_
  have hk : 4 * ((4 * r.val + c.val) % 4) + (4 * r.val + c.val) / 4 = r.val + 4 * c.val := by omega
  simp only [stateOfFlat, matrix_getElem, transpose_getElem, loadState_getElem, hk]

/-- Into the state and out again gives the block back (10_state.md R40). -/
theorem storeState_loadState (b : Block) : storeState (loadState b) = b :=
  block_ext fun k => by simp only [storeState_getElem, loadState_getElem, Nat.mod_add_div]

/-- Settles O50: every clause reads both sides at an index, by `transpose_getElem`. -/
theorem transposeIsTheLayout : Obligations.TransposeIsTheLayout := by
  unfold Obligations.TransposeIsTheLayout
  refine ⟨transpose_transpose, fun b i j hi hj => ?_, stateOfFlat_transpose, storeState_loadState,
    fun b r c hr hc => loadState_getElem b r c hr hc, by decide⟩
  have hk : 4 * ((4 * i + j) % 4) + (4 * i + j) / 4 = 4 * j + i := by omega
  simp only [transpose_getElem, hk]

end Sys2Proof.Proofs
end

section
/-! The round-key mixer (45_round_pipeline.md R221). -/

namespace Sys2Proof.Proofs

open Sys2Proof.Machine

/-- Sequencing two attempts succeeds exactly when both do. -/
theorem bind_eq_ok_iff {α β : Type} {a : Attempt α} {f : α → Attempt β} {y : β} :
    (a >>= f) = .ok y ↔ ∃ x, a = .ok x ∧ f x = .ok y := by
  refine ⟨bind_eq_ok, ?_⟩
  rintro ⟨x, rfl, hx⟩
  exact hx

section Mixer
variable {w : Vector Word 60} {r : Nat} {k : Vector Word 4} {s t : CState}

@[simp] theorem addWords_getElem (i c : Nat) (hi : i < 4) (hc : c < 4) :
    (addWords k s)[i][c] = s[i][c] ^^^ wordByte k[c] ⟨i, hi⟩ := by
  simp [addWords]

/-- The same words mixed in twice cancel. -/
theorem addWords_addWords (k : Vector Word 4) (s : CState) : addWords k (addWords k s) = s :=
  cstate_ext fun i c => by simp

theorem addWords_zero (hk : ∀ (c : Nat) (hc : c < 4), k[c] = 0#32) : addWords k s = s :=
  cstate_ext fun i c => by simp [hk, wordByte]

/-- What AddRoundKey answers is the round key mixed in. -/
theorem addRoundKey_eq_ok_iff : addRoundKey w r s = .ok t ↔ ∃ k, roundKey w r = .ok k ∧ addWords k s = t := by
  rw [addRoundKey, bind_eq_ok_iff]
  exact exists_congr fun k => and_congr_right fun _ => ⟨Except.ok.inj, congrArg _⟩

/-- AddRoundKey(r) undoes itself, whatever the word file. -/
theorem addRoundKey_comm : addRoundKey w r s = .ok t ↔ addRoundKey w r t = .ok s := by
  have hundo {s t : CState} (h : addRoundKey w r s = .ok t) : addRoundKey w r t = .ok s := by
    obtain ⟨k, hk, rfl⟩ := addRoundKey_eq_ok_iff.mp h
    exact addRoundKey_eq_ok_iff.mpr ⟨k, hk, addWords_addWords k s⟩
  exact ⟨hundo, hundo⟩

/-- The words of a round key are consecutive words of the file (43_key_schedule.md R181). -/
theorem roundKeyWords_getElem (w : Vector Word 60) (hr : r ≤ 14) (c : Nat) (hc : c < 4) :
    #v[w[4 * r], w[4 * r + 1], w[4 * r + 2], w[4 * r + 3]][c] = w[4 * r + c] := by
  match c, hc with
  | 0, _ | 1, _ | 2, _ | 3, _ => rfl

end Mixer

/-- Settles O52: in range the state is `addWords` of four consecutive words, read byte by byte. -/
theorem addRoundKeyRule : Obligations.AddRoundKeyRule := by
  unfold Obligations.AddRoundKeyRule
  refine ⟨fun w r s hr => ?_, by decide⟩
  have hmix := addRoundKey_eq w r s hr
  refine ⟨_, hmix, fun c hc => ?_, addRoundKey_comm.mp hmix, fun hzero => addWords_zero fun c hc => ?_⟩
  · simp only [addWords_getElem, roundKeyWords_getElem w hr]
    exact ⟨rfl, rfl, rfl, rfl⟩
  · rw [roundKeyWords_getElem w hr, hzero c hc]

end Sys2Proof.Proofs
end

section
/-! The sequencer computes Cipher and InvCipher (45_round_pipeline.md R224–R231). -/

namespace Sys2Proof.Proofs

open Sys2Proof.Machine

/-- Cipher between the load and the read-out of the state (45_round_pipeline.md R224). -/
def cipherState (w : Vector Word 60) (nr : Nat) (s : CState) : Attempt CState :=
  addRoundKey w 0 s >>= fun s => forwardRounds w (nr - 1) 1 s >>= fun s =>
    addRoundKey w nr (shiftRows (subBytes s))

/-- InvCipher between the load and the read-out of the state (45_round_pipeline.md R226). -/
def invCipherState (w : Vector Word 60) (nr : Nat) (s : CState) : Attempt CState :=
  addRoundKey w nr s >>= fun s => inverseRounds w (nr - 1) s >>= fun s =>
    addRoundKey w 0 (invSubBytes (invShiftRows s))

theorem cipher_eq (w : Vector Word 60) (nr : Nat) (blk : Block) :
    cipher w nr blk = cipherState w nr (loadState blk) >>= fun s => .ok (storeState s) := by
  simp only [cipher, cipherState, bind_assoc]
  rfl

theorem invCipher_eq (w : Vector Word 60) (nr : Nat) (blk : Block) :
    invCipher w nr blk = invCipherState w nr (loadState blk) >>= fun s => .ok (storeState s) := by
  simp only [invCipher, invCipherState, bind_assoc]
  rfl

section Sequencer
variable {w : Vector Word 60} {nr : BitVec 4}

/-- RND counts up without wrapping while it is below Nr. -/
theorem toNat_add_one {rnd : BitVec 4} (h : rnd.toNat < nr.toNat) : (rnd + 1).toNat = rnd.toNat + 1 := by
  bv_omega

/-- RND counts down without wrapping while it is not 0. -/
theorem toNat_sub_one {rnd : BitVec 4} {n : Nat} (h : rnd.toNat = n + 1) : (rnd - 1).toNat = n := by
  bv_omega

/-- The steps from RND up to Nr are the middle rounds that remain and the final round (45_round_pipeline.md R230). -/
theorem encSteps_eq : ∀ (count : Nat) (rnd : BitVec 4) (st : CState),
    1 ≤ rnd.toNat → rnd.toNat + count = nr.toNat →
    roundSteps (encStep w nr) (count + 1) ⟨.roundEnc, rnd, st⟩ =
      forwardRounds w count rnd.toNat st >>= fun s =>
        addRoundKey w nr.toNat (shiftRows (subBytes s)) >>= fun s => .ok ⟨.done, nr, s⟩
  | 0, rnd, st, _, hc => by
    obtain rfl : rnd = nr := BitVec.eq_of_toNat_eq hc
    rw [roundSteps, encStep_final w rnd _ rfl rfl, forwardRounds, ok_bind]
    exact bind_assoc (m := Except Stop) _ _ _
  | count + 1, rnd, st, h1, hc => by
    have hlt : rnd.toNat < nr.toNat := by omega
    have hnext := toNat_add_one hlt
    rw [roundSteps, encStep_full w nr _ rfl h1 hlt, forwardRounds, bind_assoc, ← hnext]
    exact (bind_assoc _ _ _).trans (bind_congr fun st' =>
      encSteps_eq count (rnd + 1) st' (by omega) (by omega))

/-- The steps from RND down to 0 are the inverse rounds that remain and the last step (45_round_pipeline.md R231). -/
theorem decSteps_eq : ∀ (count : Nat) (rnd : BitVec 4) (st : CState), rnd.toNat = count →
    roundSteps (decStep w) (count + 1) ⟨.roundDec, rnd, st⟩ =
      inverseRounds w count st >>= fun s =>
        addRoundKey w 0 (invSubBytes (invShiftRows s)) >>= fun s => .ok ⟨.done, 0#4, s⟩
  | 0, rnd, st, hc => by
    obtain rfl : rnd = 0#4 := BitVec.eq_of_toNat_eq hc
    rw [roundSteps, decStep_final w _ rfl rfl, inverseRounds, ok_bind]
    exact bind_assoc (m := Except Stop) _ _ _
  | count + 1, rnd, st, hc => by
    rw [roundSteps, decStep_full w _ rfl (show 1 ≤ rnd.toNat by omega), inverseRounds, bind_assoc]
    simp only [hc]
    exact (bind_assoc (m := Except Stop) _ _ _).trans (bind_congr fun st' =>
      decSteps_eq count (rnd - 1) (invMixColumns st') (toNat_sub_one hc))

/-- An encrypting run is Cipher on the loaded state, ending in DONE with RND = Nr (45_round_pipeline.md R230). -/
theorem runRounds_enc (blk : Block) (hnr : 1 ≤ nr.toNat) :
    runRounds .enc w nr blk = cipherState w nr.toNat (loadState blk) >>= fun s => .ok ⟨.done, nr, s⟩ := by
  obtain ⟨count, hcount⟩ := Nat.exists_eq_add_of_le' hnr
  simp only [runRounds, startEnc, cipherState, bind_assoc]
  refine bind_congr fun st => ?_
  have hsteps := encSteps_eq (w := w) count 1#4 st le_rfl ((Nat.add_comm 1 count).trans hcount.symm)
  rw [hcount] at hsteps ⊢
  exact hsteps

/-- A decrypting run is InvCipher on the loaded state, ending in DONE with RND = 0 (45_round_pipeline.md R231). -/
theorem runRounds_dec (blk : Block) (hnr : 1 ≤ nr.toNat) :
    runRounds .dec w nr blk = invCipherState w nr.toNat (loadState blk) >>= fun s => .ok ⟨.done, 0#4, s⟩ := by
  obtain ⟨count, hcount⟩ := Nat.exists_eq_add_of_le' hnr
  simp only [runRounds, startDec, invCipherState, bind_assoc]
  refine bind_congr fun st => ?_
  rw [hcount]
  exact decSteps_eq count (nr - 1) st (toNat_sub_one hcount)

end Sequencer

theorem one_le_toNat_of_roundCount {nr : BitVec 4} (hnr : nr = 10#4 ∨ nr = 12#4 ∨ nr = 14#4) : 1 ≤ nr.toNat := by
  obtain rfl | rfl | rfl := hnr <;> decide

/-- Settles O54: the run completes (`runRounds_completes`), and it is the cipher's own sequence on the loaded state. -/
theorem sequencerRunsCipher : Obligations.SequencerRunsCipher := by
  unfold Obligations.SequencerRunsCipher
  intro w nr blk hnr
  have hpos := one_le_toNat_of_roundCount hnr
  constructor
  · obtain ⟨p, hp⟩ := runRounds_completes .enc w blk hnr
    obtain ⟨s, hs, hdone⟩ := bind_eq_ok ((runRounds_enc blk hpos).symm.trans hp)
    cases hdone
    exact ⟨_, hp, rfl, rfl, by rw [cipher_eq, hs, ok_bind]⟩
  · obtain ⟨p, hp⟩ := runRounds_completes .dec w blk hnr
    obtain ⟨s, hs, hdone⟩ := bind_eq_ok ((runRounds_dec blk hpos).symm.trans hp)
    cases hdone
    exact ⟨_, hp, rfl, rfl, by rw [invCipher_eq, hs, ok_bind]⟩

end Sys2Proof.Proofs
end

section
/-! Cipher and InvCipher undo each other (45_round_pipeline.md R229). -/

namespace Sys2Proof.Proofs

open Sys2Proof.Machine

section Inverse
variable {w : Vector Word 60}

/-- SubBytes, undone by InvSubBytes (42_substitution.md R157). -/
def subBytesEquiv : CState ≃ CState := ⟨subBytes, invSubBytes, invSubBytes_subBytes, subBytes_invSubBytes⟩

/-- ShiftRows, undone by InvShiftRows (44_diffusion.md R198). -/
def shiftRowsEquiv : CState ≃ CState := ⟨shiftRows, invShiftRows, invShiftRows_shiftRows, shiftRows_invShiftRows⟩

/-- MixColumns, undone by InvMixColumns (44_diffusion.md R198). -/
def mixColumnsEquiv : CState ≃ CState :=
  ⟨mixColumns, invMixColumns, invMixColumns_mixColumns, mixColumns_invMixColumns⟩

/-- The final round before its key: SubBytes, then ShiftRows (45_round_pipeline.md R225). -/
def finalLayers : CState ≃ CState := subBytesEquiv.trans shiftRowsEquiv

theorem finalLayers_apply (s : CState) : finalLayers s = shiftRows (subBytes s) := rfl

theorem invSubBytes_invShiftRows_finalLayers (s : CState) : invSubBytes (invShiftRows (finalLayers s)) = s :=
  finalLayers.symm_apply_apply s

/-- A full round before its key: SubBytes, ShiftRows, then MixColumns (45_round_pipeline.md R225). -/
def roundLayers : CState ≃ CState := finalLayers.trans mixColumnsEquiv

/-- The middle rounds with their last round split off. -/
theorem forwardRounds_succ (w : Vector Word 60) : ∀ (count rnd : Nat) (s : CState),
    forwardRounds w (count + 1) rnd s =
      forwardRounds w count rnd s >>= fun s => addRoundKey w (rnd + count) (mixColumns (shiftRows (subBytes s)))
  | 0, rnd, s => by
    simp only [forwardRounds, ok_bind]
    exact bind_pure _
  | count + 1, rnd, s => by
    rw [forwardRounds, forwardRounds, bind_assoc]
    refine bind_congr fun s' => ?_
    rw [forwardRounds_succ w count (rnd + 1) s', Nat.succ_add_eq_add_succ]

/-- InvCipher's middle rounds undo those of Cipher. They meet between the ShiftRows and the MixColumns of a round,
since a round of InvCipher starts with InvShiftRows and ends with InvMixColumns (45_round_pipeline.md R226). -/
theorem forwardRounds_eq_ok_iff : ∀ (count : Nat) {s t : CState},
    forwardRounds w count 1 s = .ok t ↔ inverseRounds w count (finalLayers t) = .ok (finalLayers s)
  | 0, s, t => by
    simp [forwardRounds, inverseRounds, eq_comm]
  | count + 1, s, t => by
    have hmix (u : CState) : invMixColumns (roundLayers u) = finalLayers u := invMixColumns_mixColumns _
    calc forwardRounds w (count + 1) 1 s = .ok t
        ↔ ∃ u, forwardRounds w count 1 s = .ok u ∧ addRoundKey w (1 + count) (roundLayers u) = .ok t := by
          rw [forwardRounds_succ, bind_eq_ok_iff]
          rfl
      _ ↔ ∃ v, addRoundKey w (count + 1) t = .ok v ∧
            inverseRounds w count (invMixColumns v) = .ok (finalLayers s) := by
          refine (roundLayers.surjective.exists.trans (exists_congr fun u => ?_)).symm
          rw [hmix, forwardRounds_eq_ok_iff count, addRoundKey_comm, and_comm, Nat.add_comm]
      _ ↔ inverseRounds w (count + 1) (finalLayers t) = .ok (finalLayers s) := by
          rw [inverseRounds, invSubBytes_invShiftRows_finalLayers, bind_eq_ok_iff]

/-- InvCipher undoes Cipher on the state, round by round: the round keys cancel in the reverse order. -/
theorem cipherState_eq_ok_iff (w : Vector Word 60) (nr : Nat) (s t : CState) :
    cipherState w nr s = .ok t ↔ invCipherState w nr t = .ok s := by
  calc cipherState w nr s = .ok t
      ↔ ∃ a, addRoundKey w 0 s = .ok a ∧ ∃ b, forwardRounds w (nr - 1) 1 a = .ok b ∧
          addRoundKey w nr (finalLayers b) = .ok t := by
        simp only [cipherState, bind_eq_ok_iff, finalLayers_apply]
    _ ↔ ∃ b, addRoundKey w nr t = .ok (finalLayers b) ∧ ∃ a,
          inverseRounds w (nr - 1) (finalLayers b) = .ok (finalLayers a) ∧ addRoundKey w 0 a = .ok s := by
        simp only [forwardRounds_eq_ok_iff, addRoundKey_comm (s := s), addRoundKey_comm (t := t)]
        constructor <;> exact fun ⟨_, hfirst, _, hmiddle, hlast⟩ => ⟨_, hlast, _, hmiddle, hfirst⟩
    _ ↔ ∃ c, addRoundKey w nr t = .ok c ∧ ∃ d, inverseRounds w (nr - 1) c = .ok d ∧
          addRoundKey w 0 (invSubBytes (invShiftRows d)) = .ok s := by
        refine (finalLayers.surjective.exists.trans (exists_congr fun b => and_congr_right fun _ => ?_)).symm
        rw [finalLayers.surjective.exists]
        simp only [invSubBytes_invShiftRows_finalLayers]
    _ ↔ invCipherState w nr t = .ok s := by simp only [invCipherState, bind_eq_ok_iff]

theorem readOut_eq_ok_iff {a : Attempt CState} {y : Block} :
    (a >>= fun s => .ok (storeState s)) = .ok y ↔ a = .ok (loadState y) := by
  rw [bind_eq_ok_iff]
  constructor
  · rintro ⟨s, hs, hy⟩
    cases hy
    rw [hs, loadState_storeState]
  · intro h
    exact ⟨_, h, congrArg _ (storeState_loadState y)⟩

/-- InvCipher undoes Cipher and the reverse, for every round count at which they complete. -/
theorem cipher_eq_ok_iff (w : Vector Word 60) (nr : Nat) (x y : Block) :
    cipher w nr x = .ok y ↔ invCipher w nr y = .ok x := by
  rw [cipher_eq, invCipher_eq, readOut_eq_ok_iff, readOut_eq_ok_iff, cipherState_eq_ok_iff]

end Inverse

/-- The round count of a key size, in the four bits the sequencer counts with. -/
theorem exists_roundCount (ks : KeySize) :
    ∃ nr : BitVec 4, (nr = 10#4 ∨ nr = 12#4 ∨ nr = 14#4) ∧ nr.toNat = nrOf ks := by
  cases ks with
  | k128 => exact ⟨10#4, by simp, rfl⟩
  | k192 => exact ⟨12#4, by simp, rfl⟩
  | k256 => exact ⟨14#4, by simp, rfl⟩

/-- Settles O53: both complete, as the sequencer's runs do, and each undoes the other (`cipher_eq_ok_iff`). -/
theorem cipherUndone : Obligations.CipherUndone := by
  unfold Obligations.CipherUndone
  intro w ks x
  obtain ⟨nr, hlegal, hnr⟩ := exists_roundCount ks
  obtain ⟨⟨p, -, -, -, henc⟩, ⟨q, -, -, -, hdec⟩⟩ := sequencerRunsCipher w nr x hlegal
  rw [hnr] at henc hdec
  exact ⟨⟨_, henc, (cipher_eq_ok_iff w _ _ _).mp henc⟩, ⟨_, hdec, (cipher_eq_ok_iff w _ _ _).mpr hdec⟩⟩

end Sys2Proof.Proofs
end

section
/-! Where the model stops (45_round_pipeline.md R223; 41_round_constants.md R143; 20_memory.md R75). -/

namespace Sys2Proof.Proofs

open Sys2Proof.Machine

section Stops
variable {s : State} (hs : s.session = .opened)
  (hnr : ¬(configNr s.config = 10#4 ∨ configNr s.config = 12#4 ∨ configNr s.config = 14#4))

include hs hnr

/-- A round count that is not 10, 12 or 14 is refused (45_round_pipeline.md R223). -/
theorem runPipeline_refuses_roundCount (m : Mode) (blk : Block) :
    runPipeline m blk s = .error (.refused (.roundCount (configNr s.config).toNat)) := by
  simp only [runPipeline, hs, ne_eq, not_true_eq_false, if_false, if_neg hnr]

/-- Every block function goes through the pipeline, so it is refused with it (46_chaining.md R250). -/
theorem transformBlock_refuses_roundCount (m : Mode) (blk : Block) :
    transformBlock m blk s = .error (.refused (.roundCount (configNr s.config).toNat)) := by
  unfold transformBlock
  split
  · exact runPipeline_refuses_roundCount hs hnr m blk
  · cases m with
    | enc =>
      rw [cbcEncrypt, runPipeline_refuses_roundCount hs hnr .enc]
      rfl
    | dec =>
      rw [cbcDecrypt_eq, runPipeline_refuses_roundCount (s := { s with cap := blk }) hs hnr .dec]
      rfl

theorem transform_refuses_roundCount (m : Mode) :
    transform m 16#5 s = .error (.refused (.roundCount (configNr s.config).toNat)) := by
  have hv : transformVerdict 16#5 s.session = .ok () := by rw [hs]; rfl
  rw [transform_of_ok hv, transformBlock_refuses_roundCount hs hnr]
  rfl

end Stops

theorem addRoundKey_outside (w : Vector Word 60) (r : Nat) (st : CState) (hr : 15 ≤ r) :
    addRoundKey w r st = .error (.fault (.storageIndex .w (4 * r))) := by
  rw [addRoundKey, roundKey_outside w r hr]
  rfl

/-- Settles O37: each clause is the stop of the operation it names, as the outcome of a step. -/
theorem outOfContractStops : Obligations.OutOfContractStops := by
  unfold Obligations.OutOfContractStops
  refine ⟨fun s hs h10 h12 h14 => ?_, fun m blk s hs => ?_, fun n rc h7 h8 h10 => ?_, fun w r st hr => ?_⟩
  · have hstop := transform_refuses_roundCount hs (by simp [h10, h12, h14])
    exact ⟨congrArg outcomeOf (hstop .enc), congrArg outcomeOf (hstop .dec)⟩
  · rw [runPipeline_noSession m blk s hs]
    rfl
  · rw [roundConstants_refuses n rc (by simp [h7, h8, h10])]
    rfl
  · rw [addRoundKey_outside w r st hr]
    rfl

end Sys2Proof.Proofs
end

section
/-! CBC on one block: the next state of each direction, by the chaining value F (46_chaining.md R251–R254, R256;
47_commands.md R276, R277). -/

namespace Sys2Proof.Proofs

open Sys2Proof.Machine

section Pipeline
variable {s : State} {x y : Block}

theorem cipher_completes (h : CanTransform s) (x : Block) : ∃ y, cipher s.w (configNr s.config).toNat x = .ok y := by
  obtain ⟨⟨p, -, -, -, hp⟩, -⟩ := sequencerRunsCipher s.w (configNr s.config) x h.2
  exact ⟨_, hp⟩

theorem invCipher_completes (h : CanTransform s) (x : Block) :
    ∃ y, invCipher s.w (configNr s.config).toNat x = .ok y := by
  obtain ⟨-, p, -, -, -, hp⟩ := sequencerRunsCipher s.w (configNr s.config) x h.2
  exact ⟨_, hp⟩

/-- An encrypting pipeline run gives Cipher of its block, leaves it in S and ends in DONE with RND = Nr
(45_round_pipeline.md R224, R230). -/
theorem runPipeline_enc (h : CanTransform s) (hy : cipher s.w (configNr s.config).toNat x = .ok y) :
    runPipeline .enc x s = .ok ({ s with seq := .done, rnd := configNr s.config, st := loadState y }, y) := by
  rw [cipher_eq, readOut_eq_ok_iff] at hy
  have hrun : runRounds .enc s.w (configNr s.config) x = .ok ⟨.done, configNr s.config, loadState y⟩ := by
    rw [runRounds_enc x (one_le_toNat_of_roundCount h.2), hy, ok_bind]
  rw [runPipeline_of_canTransform h hrun, storeState_loadState]

/-- A decrypting pipeline run gives InvCipher of its block, leaves it in S and ends in DONE with RND = 0
(45_round_pipeline.md R226, R231). -/
theorem runPipeline_dec (h : CanTransform s) (hy : invCipher s.w (configNr s.config).toNat x = .ok y) :
    runPipeline .dec x s = .ok ({ s with seq := .done, rnd := 0#4, st := loadState y }, y) := by
  rw [invCipher_eq, readOut_eq_ok_iff] at hy
  have hrun : runRounds .dec s.w (configNr s.config) x = .ok ⟨.done, 0#4, loadState y⟩ := by
    rw [runRounds_dec x (one_le_toNat_of_roundCount h.2), hy, ok_bind]
  rw [runPipeline_of_canTransform h hrun, storeState_loadState]

end Pipeline

/-- The state after a CBC encryption whose cipher output is `y` (46_chaining.md R252; 47_commands.md R276). -/
def cbcEncrypted (y : Block) (s : State) : State :=
  { s with
    dout := y
    prev := y
    first := false
    status := .ok
    seq := .ready
    rnd := configNr s.config
    st := loadState y }

/-- The state after a CBC decryption that leaves `y` in S and gives the block `out` (46_chaining.md R253, R254;
47_commands.md R277). -/
def cbcDecrypted (y out : Block) (s : State) : State :=
  { s with
    dout := out
    cap := s.dinl
    prev := s.dinl
    first := false
    status := .ok
    seq := .ready
    rnd := 0#4
    st := loadState y }

section Block
variable {s : State} {blk y f : Block}

/-- In CBC an encryption feeds its output back (46_chaining.md R250). -/
theorem transformBlock_cbc_enc (hcbc : configCons s.config = 1#2) :
    transformBlock .enc blk s = cbcEncrypt blk s := by
  simp [transformBlock, hcbc]

/-- In CBC a decryption feeds the incoming block back (46_chaining.md R250). -/
theorem transformBlock_cbc_dec (hcbc : configCons s.config = 1#2) :
    transformBlock .dec blk s = cbcDecrypt blk s := by
  simp [transformBlock, hcbc]

/-- On an open session a TRANSFORM of 16 bytes passes its checks (60_exceptions.md R320). -/
theorem transform_of_opened (m : Mode) (hs : s.session = .opened) :
    transform m 16#5 s = transformBlock m s.dinl s >>= fun r => .ok (writeResult r) :=
  transform_of_ok (by rw [hs]; rfl)

/-- A CBC encryption of the block XOR F to `y` (46_chaining.md R252). -/
theorem transform_cbc_enc (h : CanTransform s) (hcbc : configCons s.config = 1#2)
    (hy : cipher s.w (configNr s.config).toNat (xorBlock s.dinl (chainValue s)) = .ok y) :
    transform .enc 16#5 s = .ok (cbcEncrypted y s) := by
  rw [transform_of_opened .enc h.1, transformBlock_cbc_enc hcbc, cbcEncrypt, runPipeline_enc h hy]
  rfl

/-- A CBC decryption whose InvCipher output is `y` (46_chaining.md R253). -/
theorem transform_cbc_dec (h : CanTransform s) (hcbc : configCons s.config = 1#2)
    (hy : invCipher s.w (configNr s.config).toNat s.dinl = .ok y) :
    transform .dec 16#5 s = .ok (cbcDecrypted y (xorBlock y (chainValue s)) s) := by
  have hrun := runPipeline_dec (s := { s with cap := s.dinl }) h hy
  rw [transform_of_opened .dec h.1, transformBlock_cbc_dec hcbc, cbcDecrypt_eq, hrun]
  rfl

/-- The two clauses of R251 determine F. -/
theorem eq_chainValue (hfirst : s.first = true → f = s.iv) (hlater : s.first = false → f = s.prev) :
    f = chainValue s := by
  cases hf : s.first with
  | true => rw [chainValue_first s hf, hfirst hf]
  | false => rw [chainValue_later s hf, hlater hf]

end Block

/-- Settles O34: Cipher completes on the block XOR F, and `transform_cbc_enc` gives the next state. -/
theorem cbcEncryptCompletes : Obligations.CbcEncryptCompletes := by
  unfold Obligations.CbcEncryptCompletes
  intro s f h hcbc hfirst hlater
  obtain rfl := eq_chainValue hfirst hlater
  obtain ⟨y, hy⟩ := cipher_completes h (xorBlock s.dinl (chainValue s))
  exact ⟨_, y, xorBlock_getElem _ _, hy, congrArg outcomeOf (transform_cbc_enc h hcbc hy)⟩

/-- Settles O35: InvCipher completes on the incoming block, and `transform_cbc_dec` gives the next state. -/
theorem cbcDecryptCompletes : Obligations.CbcDecryptCompletes := by
  unfold Obligations.CbcDecryptCompletes
  intro s f h hcbc hfirst hlater
  obtain rfl := eq_chainValue hfirst hlater
  obtain ⟨y, hy⟩ := invCipher_completes h s.dinl
  exact ⟨y, _, hy, xorBlock_getElem _ _, congrArg outcomeOf (transform_cbc_dec h hcbc hy)⟩

/-- On a first CBC block FIRST = 0 with PREV = IV gives the same F, and the next state takes nothing else from FIRST and
PREV, which it overwrites (46_chaining.md R261). -/
theorem transform_prev_preloaded {s : State} (m : Mode) (h : CanTransform s) (hcbc : configCons s.config = 1#2)
    (hfirst : s.first = true) :
    transform m 16#5 { s with first := false, prev := s.iv } = transform m 16#5 s := by
  have hchain : chainValue { s with first := false, prev := s.iv } = chainValue s := (chainValue_first s hfirst).symm
  cases m with
  | enc =>
    obtain ⟨y, hy⟩ := cipher_completes h (xorBlock s.dinl (chainValue s))
    rw [transform_cbc_enc h hcbc hy,
      transform_cbc_enc (s := { s with first := false, prev := s.iv }) h hcbc (by rw [hchain]; exact hy)]
    rfl
  | dec =>
    obtain ⟨y, hy⟩ := invCipher_completes h s.dinl
    rw [transform_cbc_dec h hcbc hy,
      transform_cbc_dec (s := { s with first := false, prev := s.iv }) h hcbc hy, hchain]
    rfl

/-- Settles O56: the one next state both have (`transform_prev_preloaded`) exists, since the round count is legal. -/
theorem firstFlagIsPreloadedPrev : Obligations.FirstFlagIsPreloadedPrev := by
  unfold Obligations.FirstFlagIsPreloadedPrev
  intro s m h hcbc hfirst
  obtain ⟨t, ht⟩ := transform_completes m 16#5 fun _ => h
  have ht' := (transform_prev_preloaded m h hcbc hfirst).trans ht
  cases m with
  | enc | dec => exact ⟨t, congrArg outcomeOf ht, congrArg outcomeOf ht'⟩

end Sys2Proof.Proofs
end

section
/-! A CBC stream and its decryption (46_chaining.md R258): a sender and a receiver with the same schedule and the same
chaining value stay in step, block by block. -/

namespace Sys2Proof.Proofs

open Sys2Proof.Machine

section Stream
variable {m : Mode} {b : Block} {bs out : List Block} {s t : State}

/-- A TRANSFORM that answers OK on the block in the data latch is one block of a stream. -/
theorem transformOne_of_transform (h : transform m 16#5 { s with dinl := b } = .ok t) (hok : t.status = .ok) :
    transformOne m b s = some t := by
  cases m with
  | enc | dec =>
    have hexec := congrArg outcomeOf h
    rw [outcomeOf_ok] at hexec
    simp only [transformOne, exec, execTransformEnc, execTransformDec, hexec, hok, if_true]

theorem transformStream_cons (hone : transformOne m b s = some t) (hrest : transformStream m bs t = some out) :
    transformStream m (b :: bs) s = some (t.dout :: out) := by
  simp only [transformStream, hone, hrest]

end Stream

/-- A sender `s` and a receiver `t` of one CBC stream: two open CBC sessions with the same CONFIG, schedule and
chaining value. -/
structure CbcPeers (s t : State) : Prop where
  sender : CanTransform s
  cbc : configCons s.config = 1#2
  session : s.session = t.session
  config : s.config = t.config
  w : s.w = t.w
  chain : chainValue s = chainValue t

theorem CbcPeers.receiver {s t : State} (h : CbcPeers s t) : CanTransform t := by
  obtain ⟨hs, hnr⟩ := h.sender
  exact ⟨h.session ▸ hs, h.config ▸ hnr⟩

/-- What the sender makes of a block the receiver turns back, and both take the ciphertext as the next chaining value
(46_chaining.md R258). -/
theorem CbcPeers.block_roundTrip {s t : State} (h : CbcPeers s t) (b : Block) :
    ∃ s' t', transformOne .enc b s = some s' ∧ transformOne .dec s'.dout t = some t' ∧ t'.dout = b ∧
      CbcPeers s' t' := by
  obtain ⟨y, hy⟩ := cipher_completes h.sender (xorBlock b (chainValue s))
  have hinv := (cipher_eq_ok_iff _ _ _ _).mp hy
  have hback : xorBlock (xorBlock b (chainValue s)) (chainValue t) = b := by rw [← h.chain, xorBlock_cancel]
  have henc := transform_cbc_enc (s := { s with dinl := b }) h.sender h.cbc hy
  have hdec := transform_cbc_dec (s := { t with dinl := y }) h.receiver (h.config ▸ h.cbc)
    (by rw [← h.w, ← h.config]; exact hinv)
  exact ⟨_, _, transformOne_of_transform henc rfl, transformOne_of_transform hdec rfl, hback,
    ⟨h.sender, h.cbc, h.session, h.config, h.w, rfl⟩⟩

/-- The receiver decrypts the sender's stream, whatever its length (46_chaining.md R258). -/
theorem CbcPeers.stream_roundTrip {s t : State} (h : CbcPeers s t) (message : List Block) :
    ∃ sent, transformStream .enc message s = some sent ∧ sent.length = message.length ∧
      transformStream .dec sent t = some message := by
  induction message generalizing s t with
  | nil => exact ⟨[], rfl, rfl, rfl⟩
  | cons b bs ih =>
    obtain ⟨s', t', henc, hdec, rfl, hpeers⟩ := h.block_roundTrip b
    obtain ⟨sent, hsent, hlen, hmessage⟩ := ih hpeers
    exact ⟨_, transformStream_cons henc hsent, congrArg (· + 1) hlen, transformStream_cons hdec hmessage⟩

/-- With a legal key length and 16 bytes of IV the checks of a CBC CREATE_SESSION pass (47_commands.md R273,
R275). -/
theorem createVerdict_cbc {klen : BitVec 6} {ks : KeySize} (hks : keySizeOfBytes klen.toNat = some ks) :
    createVerdict .cbc klen 16#5 = .ok ks := by
  simp [createVerdict, hks]

/-- Two sessions opened for CBC with the same constants, schedule and IV operand are peers. -/
theorem cbcPeers_openedState {s s' : State} {ks : KeySize} {rc : Vector Byte 10} {e : Expander}
    (hiv : s.ivl = s'.ivl) (hrc : roundConstants (nrcOf ks) zeroConstants = .ok rc)
    (he : keyExpansion ks s.keyl rc zeroWords = .ok e) :
    CbcPeers (openedState .cbc ks rc e s) (openedState .cbc ks rc e s') where
  sender := canTransform_of_sessionOk (sessionOk_of_openOk rfl (openOk_openedState nofun hrc he)) rfl
  cbc := configCons_packConfig ks (constructionBits .cbc)
  session := rfl
  config := rfl
  w := rfl
  chain := hiv

/-- Settles O55: the two sessions open as peers, since the key latches give one schedule, and peers carry a message of
any length. -/
theorem cbcStreamRoundTrip : Obligations.CbcStreamRoundTrip := by
  unfold Obligations.CbcStreamRoundTrip
  intro s s' k ks message hks hkey hiv
  have hverdict := createVerdict_cbc hks
  obtain ⟨rc, e, hrc, he⟩ := schedule_exists ks s.keyl
  have hpeers : CbcPeers (openedState .cbc ks rc e (release s)) (openedState .cbc ks rc e (release s')) :=
    cbcPeers_openedState hiv hrc he
  obtain ⟨sent, henc, hlen, hdec⟩ := hpeers.stream_roundTrip message
  exact ⟨_, _, sent, execCreateSession_of_ok hverdict hrc he, execCreateSession_of_ok hverdict hrc (hkey ▸ he),
    henc, hlen, hdec⟩

end Sys2Proof.Proofs
end

section
/-! The session commands as next states: what opens a session and what closes one (47_commands.md R271, R274, R280). -/

namespace Sys2Proof.Proofs

open Sys2Proof.Machine

/-- The checks of CREATE_SESSION pass on a legal key length, in ECB or in CBC with 16 bytes of IV (47_commands.md R273,
R274). -/
theorem createVerdict_of_legal {cons : Construction} {klen : BitVec 6} {ivlen : BitVec 5} {ks : KeySize}
    (hks : keySizeOfBytes klen.toNat = some ks) (hcons : cons = .ecb ∨ (cons = .cbc ∧ ivlen.toNat = 16)) :
    createVerdict cons klen ivlen = .ok ks := by
  obtain rfl | ⟨rfl, hiv⟩ := hcons
  · simp [createVerdict, hks]
  · simp [createVerdict, hks, hiv]

/-- Settles O24: the constants and the schedule exist on released state, and the next state is `openedState` of them. -/
theorem createOpensSession : Obligations.CreateOpensSession := by
  unfold Obligations.CreateOpensSession
  intro s c k v ks hks hcons
  obtain ⟨rc, e, hrc, he⟩ := schedule_exists ks s.keyl
  have hexec := execCreateSession_of_ok (s := s) (createVerdict_of_legal hks hcons) hrc he
  refine ⟨rc, e, hrc, he, hexec.trans ?_⟩
  obtain rfl | ⟨rfl, -⟩ := hcons
  · rfl
  · rfl

/-- CLOSE_SESSION leaves no session, whatever there was (47_commands.md R280). -/
theorem execCloseSession_leaves_idle {s t : State} (h : execCloseSession s = .next t) : t.session = .idle := by
  by_cases hs : s.session = .idle
  · rw [execCloseSession_idle hs] at h
    cases h
    exact hs
  · rw [execCloseSession_session hs] at h
    cases h
    rfl

/-- Settles O27: the word computes, OPEN and FAILED are the sessions that are not IDLE, and the second CLOSE_SESSION
finds the IDLE that the first one left. -/
theorem closeReleases : Obligations.CloseReleases := by
  unfold Obligations.CloseReleases
  refine ⟨rfl, rfl, fun s hs => execCloseSession_session ?_, fun s hs => execCloseSession_idle hs,
    fun s t h => execCloseSession_idle (execCloseSession_leaves_idle h)⟩
  obtain hs | hs := hs <;> simp [hs]

end Sys2Proof.Proofs
end

section
/-! TRANSFORM in ECB, and what no TRANSFORM changes (47_commands.md R276–R279; 46_chaining.md R255). -/

namespace Sys2Proof.Proofs

open Sys2Proof.Machine

/-- An ECB TRANSFORM of 16 bytes writes the result of the pipeline on its data operand (46_chaining.md R255). -/
theorem transform_ecb_of_runPipeline {m : Mode} {s : State} {r : State × Block} (hs : s.session = .opened)
    (hecb : configCons s.config = 0#2) (hrun : runPipeline m s.dinl s = .ok r) :
    transform m 16#5 s = .ok (writeResult r) := by
  rw [transform_of_opened m hs, transformBlock_ecb hecb, hrun, ok_bind]

/-- Settles O32: Cipher completes on the data operand, and `runPipeline_enc` gives the state it leaves. -/
theorem ecbEncryptCompletes : Obligations.EcbEncryptCompletes := by
  unfold Obligations.EcbEncryptCompletes
  intro s h hecb
  obtain ⟨y, hy⟩ := cipher_completes h s.dinl
  exact ⟨y, hy, congrArg outcomeOf (transform_ecb_of_runPipeline h.1 hecb (runPipeline_enc h hy))⟩

/-- Settles O33: InvCipher completes on the data operand, and `runPipeline_dec` gives the state it leaves. -/
theorem ecbDecryptCompletes : Obligations.EcbDecryptCompletes := by
  unfold Obligations.EcbDecryptCompletes
  intro s h hecb
  obtain ⟨y, hy⟩ := invCipher_completes h s.dinl
  exact ⟨y, hy, congrArg outcomeOf (transform_ecb_of_runPipeline h.1 hecb (runPipeline_dec h hy))⟩

section Frame
variable {m : Mode} {dlen : BitVec 5} {blk : Block} {e : Status} {b : Session} {s t : State} {r : State × Block}

/-- The error of a TRANSFORM that is not a partial block's writes STATUS alone (60_exceptions.md R311, R316). -/
theorem raiseError_of_transformVerdict (h : transformVerdict dlen b = .error e) (hne : e ≠ .incompleteFinalBlock) :
    raiseError e s = { s with status := e } := by
  obtain rfl | rfl | rfl | rfl := transformVerdict_eq_error h
  · exact raiseError_illegalCommand s
  · exact raiseError_noSession s
  · exact raiseError_sessionAborted s
  · exact absurd rfl hne

/-- The pipeline leaves the chaining context alone (45_round_pipeline.md R220). -/
theorem runPipeline_keeps_chain (h : runPipeline m blk s = .ok r) :
    r.1.prev = s.prev ∧ r.1.first = s.first ∧ r.1.cap = s.cap := by
  obtain ⟨-, -, p, -, rfl⟩ := runPipeline_eq_ok h
  exact ⟨rfl, rfl, rfl⟩

/-- Only a decryption captures its block in CAP (46_chaining.md R252, R254). -/
theorem transformBlock_enc_keeps_cap (h : transformBlock .enc blk s = .ok r) : r.1.cap = s.cap := by
  unfold transformBlock at h
  split at h
  · exact (runPipeline_keeps_chain h).2.2
  · obtain ⟨y, hy, hr⟩ := bind_eq_ok h
    cases Except.ok.inj hr
    exact (runPipeline_keeps_chain hy).2.2

/-- The state a TRANSFORM that answers OK leaves: SESSION and its key material, the latches and the response are as
they were. -/
theorem writeResult_frame (h : transformBlock m blk s = .ok r) :
    writeResult r = { s with
      dout := r.2, seq := .ready, status := .ok, rnd := r.1.rnd, st := r.1.st, cap := r.1.cap, prev := r.1.prev,
      first := r.1.first } := by
  rw [writeResult_eq, transformBlock_frame h]

end Frame

/-- Settles O36: a TRANSFORM ends in an error that writes STATUS alone, in a partial block's error, which releases the
context, or in the block function's state with the result written. -/
theorem transformFrame : Obligations.TransformFrame := by
  unfold Obligations.TransformFrame
  intro s t m d h
  have ht : transform m d s = .ok t := by
    cases m with
    | enc | dec => exact outcomeOf_eq_next.mp h
  obtain ⟨e, hv, rfl⟩ | ⟨-, r, hr, rfl⟩ := transform_eq_ok ht
  · by_cases hpartial : e = .incompleteFinalBlock
    · subst hpartial
      exact ⟨rfl, rfl, rfl, rfl, rfl, rfl, rfl, rfl, fun hne => absurd rfl hne, fun _ => ⟨rfl, rfl, rfl, rfl⟩,
        fun _ hne => absurd rfl hne, nofun, nofun⟩
    · rw [raiseError_of_transformVerdict hv hpartial]
      exact ⟨rfl, rfl, rfl, rfl, rfl, rfl, rfl, rfl, fun _ => ⟨rfl, rfl, rfl, rfl, rfl⟩,
        fun _ => ⟨rfl, rfl, rfl, rfl⟩, fun _ _ => ⟨rfl, rfl, rfl⟩, fun _ _ => ⟨rfl, rfl, rfl⟩, fun _ _ => rfl⟩
  · rw [writeResult_frame hr]
    refine ⟨rfl, rfl, rfl, rfl, rfl, rfl, rfl, rfl, fun _ => ⟨rfl, rfl, rfl, rfl, rfl⟩, fun hne => absurd rfl hne,
      fun hne => absurd rfl hne, fun _ hecb => ?_, fun _ henc => ?_⟩
    · rw [transformBlock_ecb hecb] at hr
      exact runPipeline_keeps_chain hr
    · subst henc
      exact transformBlock_enc_keeps_cap hr

end Sys2Proof.Proofs
end

section
/-! The session life cycle (47_commands.md R281): each command takes a row of the table. -/

namespace Sys2Proof.Proofs

open Sys2Proof.Machine

section Moves
variable {cons : Construction} {klen : BitVec 6} {ivlen : BitVec 5} {dlen : BitVec 5} {e : Status} {s t : State}

/-- The errors a CREATE_SESSION can raise (60_exceptions.md R320). -/
theorem createVerdict_eq_error (h : createVerdict cons klen ivlen = .error e) :
    e = .invalidKeyLength ∨ e = .unsupportedConstruction ∨ e = .invalidIvLength := by
  unfold createVerdict at h
  split at h
  · cases h; simp
  · split_ifs at h <;> cases h <;> simp

/-- The error a TRANSFORM of a legal length raises is the one of its session: a partial block needs an open one
(60_exceptions.md R315, R316, R320). -/
theorem transformVerdict_eq_error_of_dlenOk {b : Session} (hle : DlenOk dlen)
    (h : transformVerdict dlen b = .error e) :
    (b = .idle ∧ e = .noSession) ∨ (b = .failed ∧ e = .sessionAborted) ∨
      (b = .opened ∧ e = .incompleteFinalBlock) := by
  unfold transformVerdict at h
  rw [if_neg (not_not.mpr hle)] at h
  cases b with
  | idle => cases h; simp
  | failed => cases h; simp
  | opened =>
    rw [if_neg nofun, if_neg nofun] at h
    split at h
    · cases h; simp
    · cases h

theorem create_sessionMove (h : execCreateSession cons klen ivlen s = .next t) :
    SessionMove s.session (.ok (.createSession cons klen ivlen)) t.status t.session := by
  obtain ⟨e, hv, rfl⟩ | ⟨ks, -, ht⟩ := execCreateSession_eq_next h
  · exact .createFailed _ _ _ _ e (createVerdict_eq_error hv)
  · obtain ⟨rc, e, -, -, rfl⟩ := openSession_eq_ok ht
    exact .created _ _ _ _

/-- The decoder has ruled out a DLEN above 16, so what is left of the checks' errors are the table's rows. -/
theorem transform_sessionMove {m : Mode} {i : Instr} (hi : i = .transformEnc dlen ∨ i = .transformDec dlen)
    (hle : DlenOk dlen) (h : transform m dlen s = .ok t) :
    SessionMove s.session (.ok i) t.status t.session := by
  obtain ⟨e, hv, rfl⟩ | ⟨hv, r, hr, rfl⟩ := transform_eq_ok h
  · obtain ⟨hs, rfl⟩ | ⟨hs, rfl⟩ | ⟨hs, rfl⟩ := transformVerdict_eq_error_of_dlenOk hle hv
    · rw [raiseError_noSession, hs]
      exact .transformIdle i dlen hi
    · rw [raiseError_sessionAborted, hs]
      exact .transformFailed i dlen hi
    · rw [raiseError_incompleteFinalBlock, hs]
      exact .transformPartial i dlen hi
  · obtain ⟨hs, -⟩ := transformVerdict_eq_ok hv
    rw [writeResult_frame hr, hs]
    exact .transformOk i dlen hi

theorem close_sessionMove (h : execCloseSession s = .next t) :
    SessionMove s.session (.ok .closeSession) t.status t.session := by
  cases hs : s.session with
  | idle =>
    rw [execCloseSession_idle hs, raiseError_noSession, hs] at h
    cases h
    exact .closeIdle
  | opened =>
    rw [execCloseSession_session (by simp [hs])] at h
    cases h
    exact .closeOpened
  | failed =>
    rw [execCloseSession_session (by simp [hs])] at h
    cases h
    exact .closeFailed

/-- Every instruction the decoder can answer takes a row of the table. -/
theorem exec_sessionMove {i : Instr} (hwf : WellFormed i = true) (h : exec i s = .next t) :
    SessionMove s.session (.ok i) t.status t.session := by
  cases i with
  | createSession cons klen ivlen => exact create_sessionMove h
  | transformEnc dlen | transformDec dlen =>
    exact transform_sessionMove (by simp) (of_decide_eq_true hwf) (outcomeOf_eq_next.mp h)
  | closeSession => exact close_sessionMove h

end Moves

/-- Settles O20: an illegal word takes the first row of the table, and a word that decodes spells a well-formed
instruction, which takes its own. -/
theorem sessionLifeCycle : Obligations.SessionLifeCycle := by
  unfold Obligations.SessionLifeCycle
  intro s t p hrst hvalid h
  rw [transact_command s hrst hvalid] at h
  obtain ⟨r, hd : decode p.cmd = .error r, rfl⟩ | ⟨i, u, hd : decode p.cmd = .ok i, hu, rfl⟩ :=
    executeLatched_eq_next.mp h
  · rw [hd]
    exact .illegal s.session r
  · obtain ⟨-, hwf⟩ := decode_eq_ok_iff.mp hd
    rw [hd]
    exact exec_sessionMove (s := accept p s) (t := u) hwf hu

end Sys2Proof.Proofs
end

section
/-! The errors of the commands and the order in which they are reported (60_exceptions.md R312–R320). -/

namespace Sys2Proof.Proofs

open Sys2Proof.Machine

/-- Settles O22: the equations hold by the definition of Release, a second release changes nothing, and the zero vectors
are zero at every index. -/
theorem releaseZeroesTheContext : Obligations.ReleaseZeroesTheContext := by
  unfold Obligations.ReleaseZeroesTheContext
  exact ⟨fun _ => rfl, fun _ _ => Vector.getElem_replicate _, fun _ _ => Vector.getElem_replicate _,
    zeroBlock_getElem, fun s c k v => congrArg (outcomeOf ∘ createChecked c k v) (release_release s).symm,
    fun _ => execCloseSession_session, raiseError_incompleteFinalBlock⟩

section Create
variable {cons : Construction} {klen : BitVec 6} {ivlen : BitVec 5}

theorem exists_keySizeOfBytes {n : Nat} (h : n = 16 ∨ n = 24 ∨ n = 32) : ∃ ks, keySizeOfBytes n = some ks := by
  obtain rfl | rfl | rfl := h <;> exact ⟨_, rfl⟩

/-- A key length that is not 16, 24 or 32 is the first error (60_exceptions.md R312, R320). -/
theorem createVerdict_invalidKeyLength (h16 : klen.toNat ≠ 16) (h24 : klen.toNat ≠ 24) (h32 : klen.toNat ≠ 32) :
    createVerdict cons klen ivlen = .error .invalidKeyLength := by
  simp [createVerdict, keySizeOfBytes, h16, h24, h32]

/-- GCM is the second error (60_exceptions.md R313, R320). -/
theorem createVerdict_gcm {ks : KeySize} (hks : keySizeOfBytes klen.toNat = some ks) :
    createVerdict .gcm klen ivlen = .error .unsupportedConstruction := by
  simp [createVerdict, hks]

/-- An IV length that is not 16 in CBC is the third error (60_exceptions.md R314, R320). -/
theorem createVerdict_cbc_invalidIvLength {ks : KeySize} (hks : keySizeOfBytes klen.toNat = some ks)
    (hiv : ivlen.toNat ≠ 16) : createVerdict .cbc klen ivlen = .error .invalidIvLength := by
  simp [createVerdict, hks, hiv]

end Create

/-- Settles O23: each cause gives its verdict, and an error of CREATE_SESSION only writes STATUS on released state. -/
theorem createErrors : Obligations.CreateErrors := by
  unfold Obligations.CreateErrors
  refine ⟨fun s c k v h16 h24 h32 => ?_, fun s k v hk => ?_, fun s k v hk hv => ?_⟩
  · exact execCreateSession_of_error (createVerdict_invalidKeyLength h16 h24 h32)
  · obtain ⟨ks, hks⟩ := exists_keySizeOfBytes hk
    exact execCreateSession_of_error (createVerdict_gcm hks)
  · obtain ⟨ks, hks⟩ := exists_keySizeOfBytes hk
    exact execCreateSession_of_error (createVerdict_cbc_invalidIvLength hks hv)

/-- The block command of a direction (47_commands.md R276, R277). -/
def transformOf : Mode → BitVec 5 → Instr
  | .enc, dlen => .transformEnc dlen
  | .dec, dlen => .transformDec dlen

section Transform
variable {dlen : BitVec 5} {e : Status} {s : State}

theorem transformVerdict_overlong (b : Session) (h : 16 < dlen.toNat) :
    transformVerdict dlen b = .error .illegalCommand := by
  simp [transformVerdict, DlenOk, h]

theorem transformVerdict_idle (h : DlenOk dlen) : transformVerdict dlen .idle = .error .noSession := by
  simp [transformVerdict, h]

theorem transformVerdict_failed (h : DlenOk dlen) : transformVerdict dlen .failed = .error .sessionAborted := by
  simp [transformVerdict, h]

theorem transformVerdict_partial (h : dlen.toNat < 16) :
    transformVerdict dlen .opened = .error .incompleteFinalBlock := by
  simp [transformVerdict, DlenOk, h, h.le]

/-- A TRANSFORM whose checks fail raises the error, in either direction (60_exceptions.md R320). -/
theorem exec_transform_of_error (m : Mode) (h : transformVerdict dlen s.session = .error e) :
    exec (transformOf m dlen) s = .next (raiseError e s) := by
  cases m with
  | enc | dec => exact congrArg outcomeOf (transform_of_error h)

theorem exec_transform_idle (m : Mode) (hle : DlenOk dlen) (hs : s.session = .idle) :
    exec (transformOf m dlen) s = .next { s with status := .noSession } :=
  exec_transform_of_error m (by rw [hs, transformVerdict_idle hle])

theorem exec_transform_failed (m : Mode) (hle : DlenOk dlen) (hs : s.session = .failed) :
    exec (transformOf m dlen) s = .next { s with status := .sessionAborted } :=
  exec_transform_of_error m (by rw [hs, transformVerdict_failed hle])

theorem exec_transform_partial (m : Mode) (hlt : dlen.toNat < 16) (hs : s.session = .opened) :
    exec (transformOf m dlen) s =
      .next { release s with session := .failed, status := .incompleteFinalBlock } :=
  exec_transform_of_error m (by rw [hs, transformVerdict_partial hlt])

theorem exec_transform_overlong (m : Mode) (h : 16 < dlen.toNat) :
    exec (transformOf m dlen) s = .next { s with status := .illegalCommand } :=
  exec_transform_of_error m (transformVerdict_overlong s.session h)

/-- A TRANSFORM of 16 bytes whose session can transform answers OK (47_commands.md R276). -/
theorem exec_transform_block (m : Mode) (h : CanTransform s) :
    ∃ t, exec (transformOf m 16#5) s = .next t ∧ t.status = .ok := by
  obtain ⟨r, hr⟩ := transformBlock_completes m s.dinl h
  have ht : transform m 16#5 s = .ok (writeResult r) := by rw [transform_of_opened m h.1, hr, ok_bind]
  cases m with
  | enc | dec => exact ⟨writeResult r, congrArg outcomeOf ht, rfl⟩

/-- The decoder's verdict on the word a TRANSFORM of more than 16 bytes would have (30_encoding.md R109, R113). -/
theorem decode_encodeT_overlong (m : Mode) (h : 16 < dlen.toNat) :
    decode (encodeT m dlen) = .error .dataTooLong := by
  have hres : ReservedZeroT (encodeT m dlen) := reservedZeroT_encodeT m dlen
  rw [decode_formatT (opField_encodeT m dlen), decodeT, if_neg (mt not_reservedZeroT_iff.mpr (not_not.mpr hres)),
    dlenField_encodeT, if_pos h]

end Transform

/-- Settles O28: a TRANSFORM without an open session, and a CLOSE_SESSION in IDLE, write STATUS alone. -/
theorem transformWithoutSession : Obligations.TransformWithoutSession := by
  unfold Obligations.TransformWithoutSession
  exact ⟨fun s d hle hs => ⟨exec_transform_idle .enc hle hs, exec_transform_idle .dec hle hs⟩,
    fun s d hle hs => ⟨exec_transform_failed .enc hle hs, exec_transform_failed .dec hle hs⟩,
    fun s hs => execCloseSession_idle hs⟩

/-- Settles O29: both directions raise IncompleteFinalBlock before any round, and it releases the context. -/
theorem partialBlockFailsSession : Obligations.PartialBlockFailsSession := by
  unfold Obligations.PartialBlockFailsSession
  intro s d hs hlt
  exact ⟨exec_transform_partial .enc hlt hs,
    (exec_transform_partial .dec hlt hs).trans (exec_transform_partial .enc hlt hs).symm⟩

/-- Settles O31: the length is checked before the session, by the instruction as by the decoder. -/
theorem overlongTransformIsIllegal : Obligations.OverlongTransformIsIllegal := by
  unfold Obligations.OverlongTransformIsIllegal
  intro s d h
  exact ⟨exec_transform_overlong .enc h, exec_transform_overlong .dec h, decode_encodeT_overlong .enc h,
    decode_encodeT_overlong .dec h⟩

section Priority
variable {dlen : BitVec 5} {s : State}

/-- An opening whose checks pass answers OK (47_commands.md R271). -/
theorem execCreateSession_ok_status {cons : Construction} {klen : BitVec 6} {ivlen : BitVec 5} {ks : KeySize}
    (h : createVerdict cons klen ivlen = .ok ks) :
    ∃ t, execCreateSession cons klen ivlen s = .next t ∧ t.status = .ok := by
  obtain ⟨rc, e, hrc, he⟩ := schedule_exists ks s.keyl
  exact ⟨_, execCreateSession_of_ok h hrc he, rfl⟩

/-- CREATE_SESSION reports the first of a bad key length, GCM and a bad IV length (60_exceptions.md R320). -/
theorem execCreateSession_priority (cons : Construction) (klen : BitVec 6) (ivlen : BitVec 5) (s : State) :
    ∃ t, execCreateSession cons klen ivlen s = .next t ∧
      t.status =
        (if klen.toNat ≠ 16 ∧ klen.toNat ≠ 24 ∧ klen.toNat ≠ 32 then .invalidKeyLength
          else if cons = .gcm then .unsupportedConstruction
          else if cons = .cbc ∧ ivlen.toNat ≠ 16 then .invalidIvLength
          else .ok) := by
  split_ifs with hlen hgcm hiv
  · obtain ⟨h16, h24, h32⟩ := hlen
    exact ⟨_, execCreateSession_of_error (createVerdict_invalidKeyLength h16 h24 h32), rfl⟩
  all_goals
    obtain ⟨ks, hks⟩ := exists_keySizeOfBytes (n := klen.toNat) (by omega)
  · subst hgcm
    exact ⟨_, execCreateSession_of_error (createVerdict_gcm hks), rfl⟩
  · obtain ⟨rfl, hv⟩ := hiv
    exact ⟨_, execCreateSession_of_error (createVerdict_cbc_invalidIvLength hks hv), rfl⟩
  · refine execCreateSession_ok_status (createVerdict_of_legal hks ?_)
    cases cons with
    | ecb => exact .inl rfl
    | cbc => exact .inr ⟨rfl, not_not.mp fun hv => hiv ⟨rfl, hv⟩⟩
    | gcm => exact absurd rfl hgcm

/-- A TRANSFORM of at most 16 bytes reports what is wrong with the session before a partial block (60_exceptions.md
R320). -/
theorem exec_transform_priority (m : Mode) (hle : DlenOk dlen)
    (hcan : s.session = .opened → dlen.toNat = 16 → CanTransform s) :
    ∃ t, exec (transformOf m dlen) s = .next t ∧
      t.status =
        (if s.session = .idle then .noSession
          else if s.session = .failed then .sessionAborted
          else if dlen.toNat < 16 then .incompleteFinalBlock
          else .ok) := by
  split_ifs with hidle hfailed hlt
  · exact ⟨_, exec_transform_idle m hle hidle, rfl⟩
  · exact ⟨_, exec_transform_failed m hle hfailed, rfl⟩
  all_goals
    have hs : s.session = .opened := by
      cases h : s.session with
      | opened => rfl
      | idle => exact absurd h hidle
      | failed => exact absurd h hfailed
  · exact ⟨_, exec_transform_partial m hlt hs, rfl⟩
  · have hlen : dlen.toNat = 16 := le_antisymm hle (not_lt.mp hlt)
    obtain rfl : dlen = 16#5 := BitVec.eq_of_toNat_eq hlen
    exact exec_transform_block m (hcan hs hlen)

theorem execCloseSession_priority (s : State) :
    ∃ t, execCloseSession s = .next t ∧ t.status = if s.session = .idle then .noSession else .ok := by
  split_ifs with hs
  · exact ⟨_, execCloseSession_idle hs, rfl⟩
  · exact ⟨_, execCloseSession_session hs, rfl⟩

end Priority

/-- Settles O30: an Illegal word comes before any command, and each command's checks follow the order of its list. -/
theorem errorPriority : Obligations.ErrorPriority := by
  unfold Obligations.ErrorPriority
  refine ⟨fun s p r hrst hvalid hdec => ?_, fun s c k v => execCreateSession_priority c k v s,
    fun s m d hle hcan => ?_, execCloseSession_priority⟩
  · rw [transact_command s hrst hvalid, executeLatched_illegal (s := accept p s) hdec]
    exact ⟨_, rfl, rfl⟩
  · cases m with
    | enc => exact exec_transform_priority .enc hle hcan
    | dec => exact exec_transform_priority .dec hle hcan

end Sys2Proof.Proofs
end

section
/-! The codes a step writes to STATUS (60_exceptions.md R310, R317). -/

namespace Sys2Proof.Proofs

open Sys2Proof.Machine

section Codes
variable {i : Instr} {m : Mode} {cons : Construction} {klen : BitVec 6} {ivlen dlen : BitVec 5} {s t : State}

theorem ownStatus_ok : OwnStatus .ok := ⟨nofun, nofun⟩

theorem create_ownStatus (h : execCreateSession cons klen ivlen s = .next t) : OwnStatus t.status := by
  obtain ⟨e, hv, rfl⟩ | ⟨ks, -, ht⟩ := execCreateSession_eq_next h
  · obtain rfl | rfl | rfl := createVerdict_eq_error hv <;> exact ⟨nofun, nofun⟩
  · obtain ⟨rc, e, -, -, rfl⟩ := openSession_eq_ok ht
    exact ownStatus_ok

theorem transform_ownStatus (h : transform m dlen s = .ok t) : OwnStatus t.status := by
  obtain ⟨e, hv, rfl⟩ | ⟨-, r, -, rfl⟩ := transform_eq_ok h
  · obtain rfl | rfl | rfl | rfl := transformVerdict_eq_error hv <;> exact ⟨nofun, nofun⟩
  · exact ownStatus_ok

theorem close_ownStatus (h : execCloseSession s = .next t) : OwnStatus t.status := by
  obtain ⟨u, hu, hstatus⟩ := execCloseSession_priority s
  cases h.symm.trans hu
  rw [hstatus]
  split_ifs
  · exact ⟨nofun, nofun⟩
  · exact ownStatus_ok

/-- Every instruction writes a code of AES-CORE's own, whatever STATUS was (60_exceptions.md R317). -/
theorem exec_ownStatus (h : exec i s = .next t) : OwnStatus t.status := by
  cases i with
  | createSession cons klen ivlen => exact create_ownStatus h
  | transformEnc dlen | transformDec dlen => exact transform_ownStatus (outcomeOf_eq_next.mp h)
  | closeSession => exact close_ownStatus h

theorem executeLatched_ownStatus (h : executeLatched s = .next t) : OwnStatus t.status := by
  obtain ⟨-, -, rfl⟩ | ⟨i, u, -, hu, rfl⟩ := executeLatched_eq_next.mp h
  · exact ⟨nofun, nofun⟩
  · exact exec_ownStatus (t := u) hu

/-- All a step can answer: a reset, the end of a command, or a quiet edge (30_encoding.md R100–R105). -/
theorem step_eq_next (h : step s = .next t) :
    t = resetEdge (takeInput s).2 ∨ (∃ u, executeLatched u = .next t) ∨ t = quiet (takeInput s).2 := by
  cases hrst : (takeInput s).1.rst with
  | true =>
    rw [step_reset hrst] at h
    cases h
    exact .inl rfl
  | false =>
    cases hbusy : s.busy with
    | true => exact .inr (.inl ⟨s, (step_busy hbusy hrst).symm.trans h⟩)
    | false =>
      rw [step_idle s hbusy] at h
      obtain ⟨-, ht⟩ | ⟨-, -, hrun⟩ | ⟨-, -, ht⟩ := transact_eq_next.mp h
      · exact .inl ht
      · exact .inr (.inl ⟨_, hrun⟩)
      · exact .inr (.inr ht)

end Codes

/-- Every status can be read back from its code (60_exceptions.md R310). -/
theorem ofNat_statusCode (e : Status) : Status.ofNat (statusCode e).toNat = e := by
  cases e <;> rfl

theorem statusCode_le (e : Status) : (statusCode e).toNat ≤ 0x09 := by
  cases e <;> decide

/-- Settles O19: a reset and a command's end write a code of AES-CORE's own, a quiet edge keeps STATUS, and the codes
compute. -/
theorem stepKeepsOwnStatus : Obligations.StepKeepsOwnStatus := by
  unfold Obligations.StepKeepsOwnStatus
  refine ⟨fun s t h hown => ?_, rfl, rfl, statusCode_le, fun e f hcode => ?_⟩
  · obtain rfl | ⟨u, hu⟩ | rfl := step_eq_next h
    · exact ownStatus_ok
    · exact executeLatched_ownStatus hu
    · rw [takeInput_state]
      exact hown
  · rw [← ofNat_statusCode e, hcode, ofNat_statusCode]

end Sys2Proof.Proofs
end

section
/-! Reset over everything, and what a latency may depend on (70_reset_and_hazards.md R351, R352, R370). -/

namespace Sys2Proof.Proofs

open Sys2Proof.Machine

/-- Settles O12: a reset edge gives `resetEdge`, which keeps of the core nothing but the host's coming inputs. -/
theorem resetOverridesEverything : Obligations.ResetOverridesEverything := by
  unfold Obligations.ResetOverridesEverything
  refine ⟨fun p q c hp hq => ?_, fun p c d hp _ hhost => ?_⟩
  · exact ⟨resetEdge c.core, clockEdge_reset c hp, rfl, rfl, rfl, clockEdge_reset ⟨resetEdge c.core, 0⟩ hq⟩
  · rw [clockEdge_reset c hp, clockEdge_reset d hp, resetEdge_eq, resetEdge_eq, hhost]
    exact ⟨rfl, rfl⟩

section Latency
variable {i : Instr} {m : Mode} {dlen : BitVec 5} {s s' t : State}

/-- The only TRANSFORM that does not complete is one of a block on a round count the pipeline refuses
(45_round_pipeline.md R223). -/
theorem transform_completes_iff :
    (∃ t, transform m dlen s = .ok t) ↔ (transformVerdict dlen s.session = .ok () → CanTransform s) := by
  constructor
  · rintro ⟨t, ht⟩ hv
    obtain ⟨hs, rfl⟩ := transformVerdict_eq_ok hv
    refine ⟨hs, by_contra fun hnr => ?_⟩
    cases (transform_refuses_roundCount hs hnr m).symm.trans ht
  · intro h
    cases hv : transformVerdict dlen s.session with
    | error e => exact ⟨_, transform_of_error hv⟩
    | ok u => exact transform_completes m dlen fun _ => h hv

theorem transform_completes_congr (hs : s.session = s'.session) (hconfig : s.config = s'.config)
    (h : transform m dlen s = .ok t) : ∃ t', transform m dlen s' = .ok t' := by
  have hcan := transform_completes_iff.mp ⟨t, h⟩
  rw [CanTransform, hs, hconfig] at hcan
  exact transform_completes_iff.mpr hcan

/-- Whether an instruction completes depends on SESSION and CONFIG alone. -/
theorem exec_completes_congr (hs : s.session = s'.session) (hconfig : s.config = s'.config)
    (h : exec i s = .next t) : ∃ t', exec i s' = .next t' := by
  cases i with
  | createSession cons klen ivlen => exact execCreateSession_completes cons klen ivlen s'
  | transformEnc dlen | transformDec dlen =>
    exact (transform_completes_congr hs hconfig (outcomeOf_eq_next.mp h)).imp fun _ => outcomeOf_eq_next.mpr
  | closeSession => exact execCloseSession_completes s'

/-- The latched command completes with a STATUS that depends on the command word, SESSION and CONFIG alone. -/
theorem executeLatched_status_congr (hcmd : s.cmdl = s'.cmdl) (hs : s.session = s'.session)
    (hconfig : s.config = s'.config) (h : executeLatched s = .next t) :
    ∃ t', executeLatched s' = .next t' ∧ t'.status = t.status := by
  obtain ⟨t', ht'⟩ : ∃ t', executeLatched s' = .next t' := by
    obtain ⟨r, hd, -⟩ | ⟨i, u, hd, hu, -⟩ := executeLatched_eq_next.mp h <;> rw [hcmd] at hd
    · exact ⟨_, executeLatched_illegal hd⟩
    · obtain ⟨u', hu'⟩ := exec_completes_congr hs hconfig hu
      exact ⟨_, executeLatched_eq_next.mpr (.inr ⟨i, u', hd, hu', rfl⟩)⟩
  obtain ⟨hstatus, -⟩ := executeLatched_status_session hcmd hs h ht'
  exact ⟨t', ht', hstatus.symm⟩

theorem checksPass_eq_true_iff : checksPass s = true ↔ ∃ t, executeLatched s = .next t ∧ t.status = .ok := by
  unfold checksPass
  cases executeLatched s <;> simp

theorem checksPass_congr (hcmd : s.cmdl = s'.cmdl) (hs : s.session = s'.session) (hconfig : s.config = s'.config) :
    checksPass s = checksPass s' := by
  rw [Bool.eq_iff_iff, checksPass_eq_true_iff, checksPass_eq_true_iff]
  constructor
  · rintro ⟨t, ht, hok⟩
    obtain ⟨t', ht', hstatus⟩ := executeLatched_status_congr hcmd hs hconfig ht
    exact ⟨t', ht', hstatus.trans hok⟩
  · rintro ⟨t, ht, hok⟩
    obtain ⟨t', ht', hstatus⟩ := executeLatched_status_congr hcmd.symm hs.symm hconfig.symm ht
    exact ⟨t', ht', hstatus.trans hok⟩

end Latency

/-- Settles O15: the class is read from the word, the round count from the word and CONFIG, and whether the checks pass
depends on no more than those and SESSION. -/
theorem latencyIgnoresKeyAndData : Obligations.LatencyIgnoresKeyAndData := by
  unfold Obligations.LatencyIgnoresKeyAndData
  rintro s t ⟨hs, hconfig, -, -, hcmd⟩
  have hrounds : latencyRounds s = latencyRounds t := by rw [latencyRounds, latencyRounds, hcmd, hconfig]
  rw [latency, latency, hcmd, hrounds, checksPass_congr hcmd hs hconfig]

end Sys2Proof.Proofs
end

section
/-! The known-answer vectors (95_test_vectors.md L1.3, L2.8–L2.10). -/

namespace Sys2Proof.Proofs

open Sys2Proof.Machine

/-- One block under a key, from the constants to the cipher output (47_commands.md R271, R276). -/
def encryptUnderKey (ks : KeySize) (key : Vector Word 8) (x : Block) : Attempt Block := do
  let rc ← roundConstants (nrcOf ks) zeroConstants
  let e ← keyExpansion ks key rc zeroWords
  cipher e.w (nrOf ks) x

/-- An encryption under a key has a schedule, and that schedule decrypts back (45_round_pipeline.md R229). -/
theorem encryptUnderKey_eq_ok {ks : KeySize} {key : Vector Word 8} {x y : Block}
    (h : encryptUnderKey ks key x = .ok y) :
    ∃ rc e, roundConstants (nrcOf ks) zeroConstants = .ok rc ∧ keyExpansion ks key rc zeroWords = .ok e ∧
      cipher e.w (nrOf ks) x = .ok y ∧ invCipher e.w (nrOf ks) y = .ok x := by
  obtain ⟨rc, hrc, h⟩ := bind_eq_ok h
  obtain ⟨e, he, hy⟩ := bind_eq_ok h
  exact ⟨rc, e, hrc, he, hy, (cipher_eq_ok_iff e.w (nrOf ks) x y).mp hy⟩

/-- The plaintext block of the known-answer vectors (95_test_vectors.md L1.3). -/
def knownPlaintext : Block := blockOfPort 0x00112233445566778899aabbccddeeff#128

theorem encryptUnderKey_known_128 :
    encryptUnderKey .k128 (wordsOfPort 0x000102030405060708090a0b0c0d0e0f00000000000000000000000000000000#256)
      knownPlaintext = .ok (blockOfPort 0x69c4e0d86a7b0430d8cdb78070b4c55a#128) := by
  decide +kernel

theorem encryptUnderKey_known_192 :
    encryptUnderKey .k192 (wordsOfPort 0x000102030405060708090a0b0c0d0e0f10111213141516170000000000000000#256)
      knownPlaintext = .ok (blockOfPort 0xdda97ca4864cdfe06eaf70a0ec0d7191#128) := by
  decide +kernel

theorem encryptUnderKey_known_256 :
    encryptUnderKey .k256 (wordsOfPort 0x000102030405060708090a0b0c0d0e0f101112131415161718191a1b1c1d1e1f#256)
      knownPlaintext = .ok (blockOfPort 0x8ea2b7ca516745bfeafc49904b496089#128) := by
  decide +kernel

/-- Settles O41: the encryptions compute, and the way back is `cipher_eq_ok_iff`. -/
theorem knownAnswerVectors : Obligations.KnownAnswerVectors := by
  unfold Obligations.KnownAnswerVectors
  simp only [List.forall_mem_cons, List.not_mem_nil, false_imp_iff, implies_true, and_true]
  exact ⟨encryptUnderKey_eq_ok encryptUnderKey_known_128, encryptUnderKey_eq_ok encryptUnderKey_known_192,
    encryptUnderKey_eq_ok encryptUnderKey_known_256⟩

end Sys2Proof.Proofs
end
